-- ==== Sys2Proof/Word.lean ====
section
/-! DEFINITION. The machine's words: the 16-bit word of exchange memory, the byte of the deck line and
the 32-bit count of the deck clock (00_scope.md, Conventions). -/

namespace Sys2Proof

/-- A word of exchange memory and of the port registers (00_scope.md, Words and addresses). -/
abbrev Word := BitVec 16

/-- A byte of the deck line (00_scope.md, Words and addresses). -/
abbrev Byte := BitVec 8

/-- A value of the deck clock: milliseconds, modulo 2^32 (00_scope.md, Time). -/
abbrev Clock := BitVec 32

end Sys2Proof
end

