-- ==== Sys2Proof/Syntax.lean ====
section
/-! DEFINITION. The commands of the Gavhorn 4820: one constructor for each row of spec/opcode_table.json.
Numbered things are indexed from 0 here (ramp 1 of the crew is `0 : Fin 4`); cards are 0 to 39, board
cards first (12_exchange_memory_map.md). -/

namespace Sys2Proof

/-- A requester of a hydraulic pack: one of the ramps, or the door unit (03_hydraulic_power_packs.md). -/
inductive Requester where
  | ramp (r : Fin 4)
  | doorUnit
deriving DecidableEq, Repr

/-- The two port registers a host write leaves alone (R174). -/
inductive ReadOnlyRegister where
  | portIdent
  | portStatus
deriving DecidableEq, Repr

/-- What the receive line carried in answer to a frame: the bit time of the answer window at which the low
period began, and the line's level in each bit time from that one on, `true` high. After the last of them the
line idles at mark (R2, R8; LOG 48). -/
structure Reception where
  start : Nat
  levels : List Bool
deriving DecidableEq, Repr

/-- The commands: the rows of the opcode table, in its order. A taking of an order card
(`unknownOrderKind` to `watchClear`) has its operands on the card at the head of the intake list. -/
inductive Instr where
  /-- Release of power-on reset with the levels of the two rate straps and of the deck stop pin (R193). -/
  | powerOnReset (strapA strapB stopPin : Bool)
  /-- The clearing of exchange memory and the writing of start values end (R193). -/
  | startingComplete
  /-- A write to PORT CONTROL with 1001 in bits 15-12; `low` is bits 11-0 of the word (R174, R194). -/
  | restartCommand (low : BitVec 12)
  /-- A write to PORT CONTROL (R174, R176). -/
  | portControlEnables (value : Word)
  /-- A write to ATTENTION (R175). -/
  | attentionWrite (value : Word)
  /-- A write to PORT IDENT or PORT STATUS (R174). -/
  | registerWriteNoEffect (register : ReadOnlyRegister) (value : Word)
  /-- A write to a word of exchange memory (R177, R178). -/
  | hostWrite (address : BitVec 14) (value : Word)
  /-- A write of POSTED to the state word of a board card (R180). -/
  | post (card : Fin 32)
  /-- A write of FREE to the state word of a board card (R180). -/
  | withdrawal (card : Fin 32)
  /-- Taking of a card whose kind code is no order kind (R182). -/
  | unknownOrderKind
  | loadTable
  | startDeck
  | cancel
  | stationEnable
  | stationDisable
  | rampLower
  | rampRaise
  | rampHold
  | rampResume
  | rampClear
  | doorClose
  | doorOpen
  | doorClear
  | zoneAlert
  | zoneSeal
  | zoneRelease
  | call
  | callStop
  | watchArm
  | watchDisarm
  | watchClear
  /-- The deck stop pin takes a level; `asserted` is the new one (R84). -/
  | deckStopPinChange (asserted : Bool)
  /-- The pin has been asserted for 8 ms: the filtered level becomes asserted (R84, R85). -/
  | deckStopAsserted
  /-- The pin has been released for 8 ms: the filtered level becomes released (R84). -/
  | deckStopReleased
  /-- The last stop bit of the master frame ends (R8). -/
  | frameSent
  /-- An answer ends; `elapsed` milliseconds passed since the last command (R9, R14). -/
  | answerReceived (rx : Reception) (elapsed : Clock)
  /-- The answer window closed with no answer (R8). -/
  | noAnswer
  /-- The pause after a first WAIT ends (R10). -/
  | pauseEnd
  /-- Settling ends (R12). -/
  | settlingEnd
  | durationTimerExpiry (r : Fin 4)
  | stageLimitExpiry (r : Fin 4)
  | blankTimerExpiry (r : Fin 4)
  | leadTimerExpiry (r : Fin 4)
  /-- The mark timer of a ramp reaches the stall limit (R99). -/
  | stall (r : Fin 4)
  /-- A grant notice in flight reaches its requester (R67, R110). -/
  | grantNotice (p : Fin 2) (q : Requester)
  /-- A preemption demand in flight reaches the ramp unit (R77). -/
  | preemptionDemand (p : Fin 2) (r : Fin 4)
  /-- A zone hold in flight reaches the ramp unit (R78). -/
  | zoneHold (z : Fin 8)
  /-- A withdrawal in flight reaches the pack arbiter (R45). -/
  | packWithdrawal (p : Fin 2) (q : Requester)
  | pumpStartLimitExpiry (p : Fin 2)
  | recoveryDwellExpiry (p : Fin 2)
  | parkHoldExpiry (p : Fin 2)
  | warningTimerExpiry (d : Fin 32)
  /-- A start given by the zone unit reaches the door unit (R106, R107). -/
  | doorStart (d : Fin 32)
  | motionTimerExpiry (d : Fin 32)
  | retryTimerExpiry (d : Fin 32)
  | packWaitTimerExpiry (d : Fin 32)
  /-- A zone's demand set in flight reaches the door unit (R118, R132). -/
  | zoneDemand (z : Fin 8)
  | alertTimerExpiry (z : Fin 8)
  | staggerTimerExpiry (z : Fin 8)
  /-- A zone's sealing notice in flight reaches the call unit (R157). -/
  | zoneSealingNotice (z : Fin 8)
  /-- The play limit of a zone channel expires (R155). -/
  | playLimitTimerExpiry (z : Fin 8)
  | gapTimerExpiry (slot : Fin 16)
deriving DecidableEq, Repr

end Sys2Proof
end

