-- ==== Sys2Proof/Config.lean ====
section
/-! DEFINITION. The constants the spec fixes for the part: the places of the exchange memory map
(12_exchange_memory_map.md), the fixed times and the line's bit-time limits. No rule of the spec leaves a
value open after which the part goes on, so there is no free value here. -/

namespace Sys2Proof.Config

/-- Words of exchange memory (12_exchange_memory_map.md). -/
def memoryWords : Nat := 16384

/-- First word of the card area: board cards, then action cards, 16 words each. -/
def cardBase : Nat := 0x0040
/-- First word after the card area. -/
def cardLimit : Nat := 0x02C0
/-- First word of the table area, and the first word after it. -/
def tableBase : Nat := 0x0400
def tableLimit : Nat := 0x0A50
def stationTableBase : Nat := 0x0400
def packTableBase : Nat := 0x0580
def zoneTableBase : Nat := 0x0590
def doorTableBase : Nat := 0x0650
def rampTableBase : Nat := 0x0850
/-- First word of the image area, and the first word after it. -/
def imageBase : Nat := 0x1000
def imageLimit : Nat := 0x17A0
def stationImageBase : Nat := 0x1000
def packImageBase : Nat := 0x1300
def rampImageBase : Nat := 0x1320
def doorImageBase : Nat := 0x13A0
def zoneImageBase : Nat := 0x15A0
def slotImageBase : Nat := 0x1620
def watchImageBase : Nat := 0x1720

/-- PORT IDENT: part code 0x482, revision 1 (R174). -/
def portIdent : Word := 0x4821

/-- The deck stop filter's time, ms (R84). -/
def stopFilterTime : Nat := 8
/-- The pack wait of a door, ms (R112). -/
def packWaitTime : Nat := 30000
/-- The play limit of a zone channel, ms (R154). -/
def playLimitTime : Nat := 120000
/-- The largest value of the mark timer and of an interval, ms (R88). -/
def markTimerMax : Nat := 65535

/-- Bit times of the answer window and of the pause after a WAIT (R8, R10). -/
def answerWindow : Nat := 48
/-- Bit times of low level that make a break (R7). -/
def breakRecognised : Nat := 11
/-- The longest break of a frame that is not faulty (R7). -/
def breakLongest : Nat := 40
/-- The longest idle before ADDRESS, and before a later character (R7). -/
def addressGap : Nat := 8
def characterGap : Nat := 4
/-- The longest payload (R3). -/
def payloadLongest : Nat := 16
/-- Settle time after a CORRUPT attempt, and after any other (R12). -/
def settleCorrupt : Nat := 10
def settleOther : Nat := 4
/-- Attempts of a SET transaction (R11). -/
def setAttempts : Nat := 3
/-- Misses that lose a station (R28). -/
def missLimit : Nat := 3

end Sys2Proof.Config
end

