-- ==== Sys2Proof/Machine/State.lean ====
section
/-! DEFINITION. The state of the part as plain data: every register, list, timer and record the spec
names, the commands that wait (`pending`) and the hand-overs between blocks that are in flight
(`handovers`). Records are indexed from 0; the docstrings give the spec's field names. -/

namespace Sys2Proof.Machine

/-- The part never stops: no rule halts it, and every 14-bit address of exchange memory exists. No
constructor, so no command faults. -/
inductive Fault where
deriving DecidableEq, Repr

/-- Why a command has no meaning in the model. -/
inductive Refusal where
  /-- Raised by an arm of `exec` whose command is not modelled yet. Safe: the model stops. -/
  | notModelled (mnemonic : String)
deriving DecidableEq, Repr

/-- A timer that runs: the deck clock at its start and its length in milliseconds. -/
structure RunningTimer where
  start : Clock
  length : Nat
deriving DecidableEq, Repr

/-- A timer is stopped (`none`) or running (00_scope.md, Time). -/
abbrev Timer := Option RunningTimer

/-- Exchange memory: (word address, word) pairs, addresses strictly rising, no word 0 listed. -/
abbrev Memory := List (Nat × Word)

/-! ### Port and order board (10) -/

/-- The part states (11_tables_and_start_up.md). -/
inductive PartState where
  | starting | unconfigured | running
deriving DecidableEq, Repr

/-- Card states (12, Cards). -/
inductive CardState where
  | free | posted | taken | done | refused
deriving DecidableEq, Repr

/-- A card: board cards 0 to 31, then action cards 0 to 7. -/
abbrev CardId := Fin 40

/-- Outcomes (R184; codes in 12, Cards). -/
inductive OrderOutcome where
  | ok | partialOk
  | cancelled | cut | held | stopped
  | badKind | badTarget | badValue | wrongState | interlock | busy | notConfigured | tableError
  | restarted
  | stalled | reversed | missedEnd | stationLost | packFailed | obstructed | timedOut
deriving DecidableEq, Repr

/-- Cause of the last misuse (12, Header). -/
inductive MisuseCause where
  | none | partArea | state | takenCard
deriving DecidableEq, Repr

/-- Last misuse address and cause (R179). -/
structure Misuse where
  address : Word
  cause : MisuseCause
deriving DecidableEq, Repr

/-- The port's card shadows, the intake list and the completed-card count (R178, R181, R183). -/
structure CardDesk where
  shadow : Vector CardState 40
  intake : List CardId
  completed : Word
deriving DecidableEq, Repr

/-- Pins: latched rate straps, the deck stop pin and its filter (R1, R84). -/
structure Pins where
  strapA : Bool
  strapB : Bool
  stopPin : Bool
  /-- deck clock at which the filter began counting the pin's present level -/
  stopSince : Clock
  /-- filtered level: asserted -/
  stopLevel : Bool
deriving DecidableEq, Repr

/-! ### Adopted tables (R25, R41, R58, R59, R102, R126) -/

/-- Station kinds (R24). -/
inductive StationKind where
  | none | door | ramp | pack | call | sensor
deriving DecidableEq, Repr

structure StationEntry where
  kind : StationKind
  confirmCount : Nat
  enabledAtStart : Bool
deriving DecidableEq, Repr

structure PackEntry where
  /-- `none`: the pack is not fitted -/
  station : Option (Fin 48)
  /-- seconds -/
  startLimit : Nat
  /-- seconds -/
  parkHold : Nat
  capacity : Nat
deriving DecidableEq, Repr

/-- End condition of a stage (R59). -/
inductive EndCondition where
  /-- duration in units of 10 ms -/
  | time (duration : Nat)
  | mark (target : Nat)
  /-- `landed`: the end switch is LANDED, otherwise STOWED -/
  | switch (landed : Bool)
deriving DecidableEq, Repr

structure StageRecord where
  valves : BitVec 8
  endCondition : EndCondition
  next : Nat
  /-- units of 100 ms; 0: no limit -/
  limit : Nat
  /-- ms; 0: the history is kept -/
  reseed : Nat
deriving DecidableEq, Repr

structure RampEntry where
  station : Fin 48
  pack : Fin 2
  zone : Fin 8
  travel : Nat
  /-- nominal interval I0, ms -/
  nominal : Nat
  /-- smoothing depth N -/
  depth : Nat
  /-- lead fraction C -/
  lead : Nat
  /-- blank fraction B -/
  blank : Nat
  /-- stall multiple M -/
  stallMultiple : Nat
  /-- stall action WARN, otherwise HALT -/
  warn : Bool
  gates : List (Fin 32)
  lowerFirst : Nat
  raiseFirst : Nat
  /-- stage s is entry s - 1 -/
  stages : Vector StageRecord 12
deriving DecidableEq, Repr

/-- The kinds of fitted door with what only they use: a pack, a ramp (R102). -/
inductive DoorKind where
  | springFire
  | hydraulicFire (pack : Fin 2)
  | gate (pack : Fin 2) (ramp : Fin 4)
deriving DecidableEq, Repr

structure DoorEntry where
  kind : DoorKind
  station : Fin 48
  point : Fin 4
  zone : Fin 8
  /-- seconds, as are the other times -/
  warnTime : Nat
  closeLimit : Nat
  openLimit : Nat
  retryLimit : Nat
  retryDelay : Nat
deriving DecidableEq, Repr

structure ZoneEntry where
  /-- at most two: station and point -/
  points : List (Fin 48 × Fin 4)
  callStation : Option (Fin 48)
  closeOrder : List (Fin 32)
  autoSeal : Bool
  /-- seconds -/
  confirmTime : Nat
  /-- 0: no sealing call -/
  clip : Nat
  repeats : Nat
  /-- seconds -/
  stagger : Nat
deriving DecidableEq, Repr

/-- The tables by name; the code of LOAD TABLE is one more than the index (11.1). -/
inductive TableName where
  | stations | packs | ramps | doors | zones
deriving DecidableEq, Repr

/-- The adopted copies and the adopted set. `none` is a ramp or door that is not fitted. -/
structure Tables where
  stations : Vector StationEntry 48
  packs : Vector PackEntry 2
  ramps : Vector (Option RampEntry) 4
  doors : Vector (Option DoorEntry) 32
  zones : Vector ZoneEntry 8
  /-- bit c - 1 while the table of code c is adopted (12, Header) -/
  adopted : BitVec 5
deriving DecidableEq, Repr

/-! ### Line controller (01) -/

/-- States of the line controller ("at a glance"). -/
inductive LineMode where
  | stopped | idle | sending | listening | receiving | paused | settling
deriving DecidableEq, Repr

/-- Attempt outcomes and final outcomes (1.3). -/
inductive LineOutcome where
  | answered | naked | corrupt | noAnswer
deriving DecidableEq, Repr

/-- An entry of the pending SET list (1.4). The image holds byte 1 in its low 8 bits. -/
structure PendingSet where
  station : Fin 48
  image : BitVec 32
  urgent : Bool
deriving DecidableEq, Repr

/-- The transaction in flight (1.3). -/
structure Transaction where
  station : Fin 48
  isSet : Bool
  /-- attempts begun -/
  attempts : Nat
  /-- sequence number and image of the last frame sent (SET) -/
  sequence : Byte
  image : BitVec 32
  /-- the bytes of the frame, ADDRESS to CRC -/
  frame : List Byte
  /-- a WAIT has been taken in this attempt (R10) -/
  waited : Bool
  /-- a removal request has come: no further attempt (R19) -/
  removal : Bool
  /-- a station table was adopted: the outcome is discarded (R23) -/
  discard : Bool
  /-- outcome of the attempt before a further one, while settling -/
  last : LineOutcome
deriving DecidableEq, Repr

/-- The side a poll is next taken from (R22). -/
inductive Side where
  | roster | fast
deriving DecidableEq, Repr

structure Line where
  mode : LineMode
  pending : List PendingSet
  /-- for each station: not owed, or owed with its URGENT mark (R18) -/
  owed : Vector (Option Bool) 48
  /-- roster position, from 0, and roster cycle count (R21) -/
  rosterPos : Fin 48
  cycle : Fin 4
  /-- fast position as an address, 0 when none has been polled (R22) -/
  fastPos : Nat
  nextSide : Side
  /-- the last transaction that ended was a POLL (R20) -/
  lastWasPoll : Bool
  transaction : Option Transaction
  /-- settle time of the settling under way, bit times (R12) -/
  settleTime : Nat
deriving DecidableEq, Repr

/-! ### Station table (02) -/

inductive StationState where
  | absent | present | lost | disabled
deriving DecidableEq, Repr

/-- The station record (2.3); kind and confirm count stand in the adopted table. -/
structure StationRecord where
  state : StationState
  reportAwaited : Bool
  rejoinPending : Bool
  missCount : Nat
  /-- report byte 1 in bits 7-0, byte 2 in bits 15-8, count bytes 0 -/
  confirmed : Word
  lastCount : Byte
  candidate : Option Word
  repeatCount : Nat
  /-- composed image, byte 1 in the low 8 bits -/
  image : BitVec 32
  sequence : Byte
deriving DecidableEq, Repr

/-! ### Pack arbiter (03) -/

inductive PackState where
  | idle | starting | ready | failed
deriving DecidableEq, Repr

/-- Classes of request (3.3). -/
inductive RequestClass where
  | motion | seal
deriving DecidableEq, Repr

inductive PackFailureCause where
  | none | fault | pressureLost | station | startLimit
deriving DecidableEq, Repr

structure PackRequest where
  requester : Requester
  cls : RequestClass
deriving DecidableEq, Repr

/-- The pack record (3.2). -/
structure PackRecord where
  state : PackState
  holder : Option Requester
  parked : Bool
  parkOnDeck : Bool
  preemptionDemanded : Bool
  requests : List PackRequest
  designated : Option Requester
  pumpRun : Bool
  pumpDelivered : Bool
  failureCause : PackFailureCause
  /-- start limit in STARTING; recovery dwell in FAILED -/
  startTimer : Timer
  parkHoldTimer : Timer
  pressureReady : Bool
  packFault : Bool
  pumpRunning : Bool
deriving DecidableEq, Repr

/-! ### Ramp unit (04) and pace computation (05) -/

inductive RampState where
  | off | stowed | landed | stopped | moving | held | fault
deriving DecidableEq, Repr

inductive Program where
  | none | lower | raise
deriving DecidableEq, Repr

inductive RampFaultCause where
  | none | reversed | stalled | timedOut | stationLost | packFailed
deriving DecidableEq, Repr

inductive HoldCause where
  | none | order | cancel | preemption | zone | gate | deckStop
deriving DecidableEq, Repr

/-- The pace record (5.1); absent values are `none`. -/
structure PaceRecord where
  /-- empty, or N intervals, oldest first -/
  history : List Nat
  p : Option Nat
  s : Option Nat
  l : Option Nat
  stallLimit : Option Nat
  warningCount : Nat
  firstMarkPending : Bool
  /-- stopped, or the deck clock of its last restart -/
  markTimer : Option Clock
  blankTimer : Timer
  leadTimer : Timer
deriving DecidableEq, Repr

/-- The ramp record (4.2). -/
structure RampRecord where
  state : RampState
  program : Program
  stage : Nat
  programStage : Nat
  awaitingGrant : Bool
  card : Option CardId
  position : Nat
  lastCount : Byte
  overTravel : Bool
  stowed : Bool
  landed : Bool
  faultCause : RampFaultCause
  holdCause : HoldCause
  lastEnd : Option OrderOutcome
  /-- valve contribution -/
  valves : BitVec 8
  durationTimer : Timer
  limitTimer : Timer
  pace : PaceRecord
deriving DecidableEq, Repr

/-! ### Door unit (06) -/

inductive DoorState where
  | opened | ajar | closed | warning | waiting | closing | opening | obstructed | failed | unknown
deriving DecidableEq, Repr

inductive DoorDemand where
  | none | close | openDoor
deriving DecidableEq, Repr

inductive DoorOrigin where
  | none | host | zone | watch
deriving DecidableEq, Repr

/-- The contribution for a door's point (R104). -/
structure DoorOutputs where
  closeDrive : Bool
  openDrive : Bool
  warning : Bool
  magnet : Bool
deriving DecidableEq, Repr

/-- The door record (6.2); its kind stands in the adopted table. -/
structure DoorRecord where
  state : DoorState
  demand : DoorDemand
  origin : DoorOrigin
  card : Option CardId
  arrival : Word
  warned : Bool
  finishing : Bool
  front : Bool
  retriesUsed : Nat
  deferred : Bool
  lastOutcome : Option OrderOutcome
  closedSwitch : Bool
  openSwitch : Bool
  beam : Bool
  outputs : DoorOutputs
  warningTimer : Timer
  motionTimer : Timer
  retryTimer : Timer
  packWaitTimer : Timer
deriving DecidableEq, Repr

/-- The door unit's relation to a pack (R110). -/
inductive PackRelation where
  | idle | requesting | holding
deriving DecidableEq, Repr

/-- What the door unit keeps beside its records (R103, R110). -/
structure DoorUnit where
  relation : Vector PackRelation 2
  rampStowed : Vector Bool 4
  nextArrival : Word
deriving DecidableEq, Repr

/-! ### Zone unit (07) -/

inductive ZoneState where
  | clear | alert | sealing | sealed | impaired
deriving DecidableEq, Repr

inductive SealCause where
  | none | host | watch | auto
deriving DecidableEq, Repr

/-- A named sensor point (R129). -/
structure PointRecord where
  active : Bool
  lost : Bool
deriving DecidableEq, Repr

/-- The zone record (7.2); sensor lost and the three counts are views of it. -/
structure ZoneRecord where
  state : ZoneState
  sealCause : SealCause
  card : Option CardId
  points : Vector PointRecord 2
  /-- the alarm is present -/
  alarm : Bool
  alertTimer : Timer
  staggerTimer : Timer
  /-- in rank order -/
  startRequests : List (Fin 32)
  placementPending : Bool
  /-- the state last reported for each door of the zone -/
  doorStates : List (Fin 32 × DoorState)
  lastDoorEnd : Option (Fin 32 × OrderOutcome)
deriving DecidableEq, Repr

/-! ### Call unit (08) -/

inductive SlotState where
  | free | queued | playing | gap
deriving DecidableEq, Repr

inductive Priority where
  | routine | boarding | safety | emergency
deriving DecidableEq, Repr

inductive CallOrigin where
  | card (c : CardId)
  | zone (z : Fin 8)
deriving DecidableEq, Repr

/-- A call slot (R146). Bit z of a zone set stands for zone z + 1. -/
structure SlotRecord where
  state : SlotState
  origin : CallOrigin
  card : Option CardId
  clip : Byte
  zones : BitVec 8
  priority : Priority
  repeats : Nat
  /-- seconds -/
  gap : Nat
  chime : Bool
  resumeOnCut : Bool
  arrival : Word
  repeatsDone : Nat
  silent : BitVec 8
  silentCount : Nat
  gapTimer : Timer
deriving DecidableEq, Repr

inductive Progress where
  | idle | sent | playing | done | silent
deriving DecidableEq, Repr

/-- What the call unit gives a zone's call station (R146, R159). -/
inductive CallContribution where
  | none
  | play (clip : Byte) (chime : Bool) (token : Byte)
  | stop
deriving DecidableEq, Repr

/-- A zone channel (R146). -/
structure ChannelRecord where
  holder : Option (Fin 16)
  progress : Progress
  token : Byte
  reference : Byte
  playTimer : Timer
  contribution : CallContribution
deriving DecidableEq, Repr

/-- What the call unit keeps beside slots and channels (R146). -/
structure CallUnit where
  nextArrival : Word
  zoneCopy : Vector ZoneState 8
deriving DecidableEq, Repr

/-! ### Watch unit (09) -/

inductive Subject where
  | none | doorState | rampState | rampPosition | zoneState | packState | stationState | zoneAlarm
deriving DecidableEq, Repr

inductive WatchTest where
  | equal | atLeast | atMost
deriving DecidableEq, Repr

/-- The watch channel record (R162). -/
structure WatchRecord where
  armed : Bool
  subject : Subject
  number : Word
  test : WatchTest
  reference : Word
  mask : Word
  /-- action POST, otherwise NOTE -/
  post : Bool
  actionCard : Word
  /-- mode SEQUENCE, otherwise INDEPENDENT -/
  sequence : Bool
  /-- last result MATCHING -/
  lastMatching : Bool
  matched : Bool
  aSeen : Bool
  overrun : Bool
  tripCount : Word
deriving DecidableEq, Repr

/-! ### Image records (12) and hand-overs -/

/-- The image records (12). -/
inductive RecordId where
  | station (i : Fin 48)
  | pack (p : Fin 2)
  | ramp (r : Fin 4)
  | door (d : Fin 32)
  | zone (z : Fin 8)
  | slot (n : Fin 16)
  | watch (k : Fin 8)
deriving DecidableEq, Repr

/-- The change count of every image record (R186). -/
structure ImageCounts where
  stations : Vector Word 48
  packs : Vector Word 2
  ramps : Vector Word 4
  doors : Vector Word 32
  zones : Vector Word 8
  slots : Vector Word 16
  watch : Vector Word 8
deriving DecidableEq, Repr

/-- A hand-over between two blocks that the opcode table gives a row of its own: it is in flight until
that row takes it (LOG 7). -/
inductive Handover where
  | grant (p : Fin 2) (q : Requester)
  | preemption (p : Fin 2) (r : Fin 4)
  | zoneHold (z : Fin 8)
  | withdrawal (p : Fin 2) (q : Requester)
  | doorStart (d : Fin 32)
  | zoneDemand (z : Fin 8)
  | sealingNotice (z : Fin 8)
deriving DecidableEq, Repr

/-- The machine. `pending` is the queue of commands, front first. -/
structure State where
  pending : List Instr
  clock : Clock
  pins : Pins
  part : PartState
  /-- PORT CONTROL enables, in the flags' bit positions (R174) -/
  enables : BitVec 10
  /-- ATTENTION (R174) -/
  attention : BitVec 10
  misuse : Misuse
  cards : CardDesk
  mem : Memory
  tables : Tables
  line : Line
  stations : Vector StationRecord 48
  packs : Vector PackRecord 2
  ramps : Vector RampRecord 4
  doors : Vector DoorRecord 32
  doorUnit : DoorUnit
  zones : Vector ZoneRecord 8
  slots : Vector SlotRecord 16
  channels : Vector ChannelRecord 8
  callUnit : CallUnit
  watch : Vector WatchRecord 8
  counts : ImageCounts
  handovers : List Handover
  /-- The model's own: the records of which a shown field has changed since the event under way began; empty
  between commands (LOG 9). -/
  changed : List RecordId
deriving DecidableEq, Repr

/-! ### Start values -/

def StationEntry.start : StationEntry := ⟨.none, 1, false⟩
def PackEntry.start : PackEntry := ⟨none, 2, 10, 1⟩
def ZoneEntry.start : ZoneEntry := ⟨[], none, [], false, 0, 0, 1, 0⟩

/-- No table adopted (R193, R194). -/
def Tables.start : Tables where
  stations := Vector.replicate 48 StationEntry.start
  packs := Vector.replicate 2 PackEntry.start
  ramps := Vector.replicate 4 none
  doors := Vector.replicate 32 none
  zones := Vector.replicate 8 ZoneEntry.start
  adopted := 0

/-- The line controller at power-on reset and at the restart command (R23). -/
def Line.start : Line where
  mode := .stopped
  pending := []
  owed := Vector.replicate 48 none
  rosterPos := 0
  cycle := 0
  fastPos := 0
  nextSide := .roster
  lastWasPoll := false
  transaction := none
  settleTime := 0

/-- A station record at power-on reset and at the restart command (R26). -/
def StationRecord.start : StationRecord where
  state := .disabled
  reportAwaited := true
  rejoinPending := false
  missCount := 0
  confirmed := 0
  lastCount := 0
  candidate := none
  repeatCount := 0
  image := 0
  sequence := 0

/-- A pack record at power-on reset, restart and entry to RUNNING (R42). -/
def PackRecord.start : PackRecord where
  state := .idle
  holder := none
  parked := false
  parkOnDeck := false
  preemptionDemanded := false
  requests := []
  designated := none
  pumpRun := false
  pumpDelivered := false
  failureCause := .none
  startTimer := none
  parkHoldTimer := none
  pressureReady := false
  packFault := false
  pumpRunning := false

/-- A pace record at the events of R87. -/
def PaceRecord.start : PaceRecord where
  history := []
  p := none
  s := none
  l := none
  stallLimit := none
  warningCount := 0
  firstMarkPending := false
  markTimer := none
  blankTimer := none
  leadTimer := none

/-- A ramp record at power-on reset and at the restart command (R60). -/
def RampRecord.start : RampRecord where
  state := .off
  program := .none
  stage := 0
  programStage := 0
  awaitingGrant := false
  card := none
  position := 0
  lastCount := 0
  overTravel := false
  stowed := false
  landed := false
  faultCause := .none
  holdCause := .none
  lastEnd := none
  valves := 0
  durationTimer := none
  limitTimer := none
  pace := PaceRecord.start

def DoorOutputs.off : DoorOutputs := ⟨false, false, false, false⟩

/-- A door record at power-on reset and at the restart command (R103; arrival: LOG 14). -/
def DoorRecord.start : DoorRecord where
  state := .unknown
  demand := .none
  origin := .none
  card := none
  arrival := 0
  warned := false
  finishing := false
  front := false
  retriesUsed := 0
  deferred := false
  lastOutcome := none
  closedSwitch := false
  openSwitch := false
  beam := false
  outputs := DoorOutputs.off
  warningTimer := none
  motionTimer := none
  retryTimer := none
  packWaitTimer := none

def DoorUnit.start : DoorUnit :=
  ⟨Vector.replicate 2 .idle, Vector.replicate 4 false, 0⟩

/-- A zone record at power-on reset and at the restart command (R127). -/
def ZoneRecord.start : ZoneRecord where
  state := .clear
  sealCause := .none
  card := none
  points := Vector.replicate 2 ⟨false, false⟩
  alarm := false
  alertTimer := none
  staggerTimer := none
  startRequests := []
  placementPending := false
  doorStates := []
  lastDoorEnd := none

/-- A FREE slot: its other fields are shown as 0 (R161). -/
def SlotRecord.start : SlotRecord where
  state := .free
  origin := .card 0
  card := none
  clip := 0
  zones := 0
  priority := .routine
  repeats := 0
  gap := 0
  chime := false
  resumeOnCut := false
  arrival := 0
  repeatsDone := 0
  silent := 0
  silentCount := 0
  gapTimer := none

/-- A channel at power-on reset (R146). -/
def ChannelRecord.start : ChannelRecord where
  holder := none
  progress := .idle
  token := 0
  reference := 0
  playTimer := none
  contribution := .none

def CallUnit.start : CallUnit := ⟨0, Vector.replicate 8 .clear⟩

/-- A watch channel at power-on reset and at the restart command (R162). -/
def WatchRecord.start : WatchRecord where
  armed := false
  subject := .none
  number := 0
  test := .equal
  reference := 0
  mask := 0
  post := false
  actionCard := 0
  sequence := false
  lastMatching := false
  matched := false
  aSeen := false
  overrun := false
  tripCount := 0

def ImageCounts.start : ImageCounts where
  stations := Vector.replicate 48 0
  packs := Vector.replicate 2 0
  ramps := Vector.replicate 4 0
  doors := Vector.replicate 32 0
  zones := Vector.replicate 8 0
  slots := Vector.replicate 16 0
  watch := Vector.replicate 8 0

/-- The part right after the release of power-on reset: in STARTING, with everything at its power-on
value (R193). The levels of the straps and of the deck stop pin are the model's choice (LOG 2);
`powerOnReset` takes them as operands. -/
def State.reset : State where
  pending := []
  clock := 0
  pins := ⟨false, false, false, 0, false⟩
  part := .starting
  enables := 0
  attention := 0
  misuse := ⟨0, .none⟩
  cards := ⟨Vector.replicate 40 .free, [], 0⟩
  mem := []
  tables := Tables.start
  line := Line.start
  stations := Vector.replicate 48 StationRecord.start
  packs := Vector.replicate 2 PackRecord.start
  ramps := Vector.replicate 4 RampRecord.start
  doors := Vector.replicate 32 DoorRecord.start
  doorUnit := DoorUnit.start
  zones := Vector.replicate 8 ZoneRecord.start
  slots := Vector.replicate 16 SlotRecord.start
  channels := Vector.replicate 8 ChannelRecord.start
  callUnit := CallUnit.start
  watch := Vector.replicate 8 WatchRecord.start
  counts := ImageCounts.start
  handovers := []
  changed := []

end Sys2Proof.Machine
end

