-- ==== Sys2Proof/Machine/Flags.lean ====
section
/-! DEFINITION. The ATTENTION flags, the attention line and the port registers (R174 to R176). -/

namespace Sys2Proof.Machine

/-- The ATTENTION flags (R174). -/
inductive Flag where
  | orders | stations | packs | ramps | doors | zones | calls | watch | misuse | stop
deriving DecidableEq, Repr

/-- The flag's bit position (R174). -/
def Flag.bit : Flag → Nat
  | .orders => 0
  | .stations => 1
  | .packs => 2
  | .ramps => 3
  | .doors => 4
  | .zones => 5
  | .calls => 6
  | .watch => 7
  | .misuse => 8
  | .stop => 9

/-- The ATTENTION word with this flag alone. -/
def Flag.mask (f : Flag) : BitVec 10 := BitVec.twoPow 10 f.bit

/-- An event sets a flag, whatever the enables hold (R175). -/
def raiseFlag (f : Flag) (s : State) : State := { s with attention := s.attention ||| f.mask }

/-- A flag is set in ATTENTION. -/
def State.hasFlag (s : State) (f : Flag) : Bool := s.attention.getLsbD f.bit

/-- The attention line is asserted while a flag is both set and enabled (R176). -/
def State.attentionLine (s : State) : Bool := s.attention &&& s.enables != 0

/-- A host write to ATTENTION clears each flag whose bit is written 0 (R175). -/
def clearFlags (value : Word) (s : State) : State :=
  { s with attention := s.attention &&& value.setWidth 10 }

/-- A host write to PORT CONTROL takes bits 9-0 as the enables (R174). -/
def setEnables (bits : BitVec 10) (s : State) : State := { s with enables := bits }

/-- The part state's code in PORT STATUS (R174). -/
def PartState.code : PartState → Word
  | .starting => 0
  | .unconfigured => 1
  | .running => 2

/-- What a host read of a port register returns, by register select (R173, R174). -/
def State.readPort (s : State) (select : BitVec 2) : Word :=
  match select.toNat with
  | 0 => Config.portIdent
  | 1 => s.enables.setWidth 16
  | 2 => s.attention.setWidth 16
  | _ => s.part.code ||| (BitVec.ofNat 16 s.cards.intake.length <<< 8)

end Sys2Proof.Machine
end

