-- ==== Sys2Proof/Machine/Views.lean ====
section
/-! DEFINITION. The fields each image record shows: the codes of states and names, and the words of each
record (12_exchange_memory_map.md). -/

namespace Sys2Proof.Machine

/-- The number on deck of an index: doors, ramps, zones and so on count from 1. -/
def deckNumber {n : Nat} (i : Fin n) : Nat := i.val + 1

/-! ### Codes (12) -/

/-- Outcome codes (12, Cards). -/
def OrderOutcome.code : OrderOutcome → Nat
  | .ok => 0x01
  | .partialOk => 0x02
  | .cancelled => 0x10
  | .cut => 0x11
  | .held => 0x12
  | .stopped => 0x13
  | .badKind => 0x20
  | .badTarget => 0x21
  | .badValue => 0x22
  | .wrongState => 0x23
  | .interlock => 0x24
  | .busy => 0x25
  | .notConfigured => 0x26
  | .tableError => 0x27
  | .restarted => 0x28
  | .stalled => 0x30
  | .reversed => 0x31
  | .missedEnd => 0x32
  | .stationLost => 0x33
  | .packFailed => 0x34
  | .obstructed => 0x35
  | .timedOut => 0x36

/-- A number as a word. -/
def wordOf (n : Nat) : Word := BitVec.ofNat 16 n

/-- Flags as the low bits of a word, bit 0 first. -/
def bitsOf (l : List Bool) : Word := l.foldr (fun b w => (w <<< 1) ||| (if b then 1 else 0)) 0

def cardReference : Option CardId → Word
  | none => 0
  | some c => wordOf (if c.val < 32 then 0x0100 + c.val else 0x0200 + (c.val - 32))

def CardState.code : CardState → Word
  | .free => 0
  | .posted => 1
  | .taken => 2
  | .done => 3
  | .refused => 4

def outcomeCode : Option OrderOutcome → Word
  | none => 0
  | some o => wordOf o.code

def StationKind.code : StationKind → Nat
  | .none => 0
  | .door => 1
  | .ramp => 2
  | .pack => 3
  | .call => 4
  | .sensor => 5

def StationState.code : StationState → Nat
  | .absent => 1
  | .present => 2
  | .lost => 3
  | .disabled => 4

def PackState.code : PackState → Nat
  | .idle => 0
  | .starting => 1
  | .ready => 2
  | .failed => 3

def PackFailureCause.code : PackFailureCause → Nat
  | .none => 0
  | .fault => 1
  | .pressureLost => 2
  | .station => 3
  | .startLimit => 4

def requesterCode : Option Requester → Nat
  | none => 0
  | some (.ramp r) => r.val + 1
  | some .doorUnit => 5

def RampState.code : RampState → Nat
  | .stowed => 0x01
  | .landed => 0x02
  | .stopped => 0x03
  | .moving => 0x10
  | .held => 0x11
  | .fault => 0x20
  | .off => 0x30

def Program.code : Program → Nat
  | .none => 0
  | .lower => 1
  | .raise => 2

/-- The outcome of the same name as a fault cause (R80). -/
def RampFaultCause.outcome : RampFaultCause → OrderOutcome
  | .none => .ok
  | .reversed => .reversed
  | .stalled => .stalled
  | .timedOut => .timedOut
  | .stationLost => .stationLost
  | .packFailed => .packFailed

/-- Fault cause, as the outcome code of the same name, or 0. -/
def RampFaultCause.code : RampFaultCause → Nat
  | .none => 0
  | c => c.outcome.code

def HoldCause.code : HoldCause → Nat
  | .none => 0
  | .order => 1
  | .cancel => 2
  | .preemption => 3
  | .zone => 4
  | .gate => 5
  | .deckStop => 6

def doorKindCode : Option DoorEntry → Nat
  | none => 0
  | some e =>
    match e.kind with
    | .springFire => 1
    | .hydraulicFire _ => 2
    | .gate _ _ => 3

def DoorState.code : DoorState → Nat
  | .opened => 0x01
  | .ajar => 0x02
  | .closed => 0x03
  | .warning => 0x11
  | .waiting => 0x12
  | .closing => 0x13
  | .opening => 0x14
  | .obstructed => 0x15
  | .unknown => 0x20
  | .failed => 0x21

def DoorDemand.code : DoorDemand → Nat
  | .none => 0
  | .close => 1
  | .openDoor => 2

def DoorOrigin.code : DoorOrigin → Nat
  | .none => 0
  | .host => 1
  | .zone => 2
  | .watch => 3

def ZoneState.code : ZoneState → Nat
  | .clear => 0x00
  | .alert => 0x01
  | .sealing => 0x10
  | .sealed => 0x11
  | .impaired => 0x12

def SealCause.code : SealCause → Nat
  | .none => 0
  | .host => 1
  | .watch => 2
  | .auto => 3

def SlotState.code : SlotState → Nat
  | .free => 0
  | .queued => 1
  | .playing => 2
  | .gap => 3

def Priority.rank : Priority → Nat
  | .routine => 0
  | .boarding => 1
  | .safety => 2
  | .emergency => 3

def Progress.code : Progress → Nat
  | .idle => 0
  | .sent => 1
  | .playing => 2
  | .done => 3
  | .silent => 4

def CallOrigin.code : CallOrigin → Word
  | .card c => cardReference (some c)
  | .zone z => wordOf (0x0300 + (z.val + 1))

def Subject.code : Subject → Nat
  | .none => 0
  | .doorState => 1
  | .rampState => 2
  | .rampPosition => 3
  | .zoneState => 4
  | .packState => 5
  | .stationState => 6
  | .zoneAlarm => 7

def WatchTest.code : WatchTest → Nat
  | .equal => 0
  | .atLeast => 1
  | .atMost => 2

/-! ### The shown fields, word 1 on -/

/-- A station's fields. The candidate word is 0 while no candidate is held, the model's choice (R195; LOG 52). -/
def StationRecord.view (r : StationRecord) (e : StationEntry) : List Word :=
  [ wordOf e.kind.code
  , wordOf e.confirmCount
  , wordOf r.state.code
  , bitsOf [r.reportAwaited, r.rejoinPending]
  , wordOf r.missCount
  , r.confirmed
  , r.lastCount.setWidth 16
  , r.candidate.getD 0
  , wordOf r.repeatCount
  , r.image.setWidth 16
  , (r.image >>> 16).setWidth 16 ]

/-- The word of a request list entry: requester and class. -/
def PackRequest.word (e : PackRequest) : Word :=
  wordOf (requesterCode (some e.requester) + (if e.cls = .seal then 0x100 else 0))

/-- Which of a pack's timers runs. -/
def PackRecord.timerCode (r : PackRecord) : Nat :=
  if r.startTimer.isSome then 1 else if r.parkHoldTimer.isSome then 2 else 0

/-- A pack's fields. The words past the end of the request list are 0, the model's choice (R195; LOG 52). -/
def PackRecord.view (r : PackRecord) : List Word :=
  [ wordOf r.state.code
  , wordOf (requesterCode r.holder)
  , bitsOf [r.parked, r.parkOnDeck, r.preemptionDemanded, r.pumpRun, r.pumpDelivered]
  , bitsOf [r.pressureReady, r.packFault, r.pumpRunning]
  , wordOf r.failureCause.code
  , wordOf r.timerCode
  , wordOf (requesterCode r.designated)
  , wordOf r.requests.length ] ++ r.requests.map PackRequest.word

/-- A ramp's fields. The words past the end of the history are 0, as an absent pace field is (R195; LOG 52). -/
def RampRecord.view (r : RampRecord) : List Word :=
  [ wordOf r.state.code
  , wordOf r.program.code
  , wordOf r.stage
  , wordOf r.programStage
  , bitsOf [r.awaitingGrant, r.overTravel, r.stowed, r.landed, r.pace.firstMarkPending,
      r.pace.blankTimer.isSome, r.pace.leadTimer.isSome]
  , cardReference r.card
  , wordOf r.position
  , r.lastCount.setWidth 16
  , wordOf r.faultCause.code
  , wordOf r.holdCause.code
  , outcomeCode r.lastEnd
  , r.valves.setWidth 16
  , wordOf (r.pace.p.getD 0)
  , wordOf (r.pace.s.getD 0)
  , wordOf (r.pace.l.getD 0)
  , wordOf (r.pace.stallLimit.getD 0)
  , wordOf r.pace.warningCount
  , wordOf r.pace.history.length ] ++ r.pace.history.map wordOf

def DoorRecord.view (r : DoorRecord) (e : Option DoorEntry) : List Word :=
  [ wordOf (doorKindCode e)
  , wordOf r.state.code
  , wordOf r.demand.code
  , wordOf r.origin.code
  , cardReference r.card
  , r.arrival
  , bitsOf [r.warned, r.finishing, r.front, r.deferred]
  , wordOf r.retriesUsed
  , outcomeCode r.lastOutcome
  , bitsOf [r.closedSwitch, r.openSwitch, r.beam]
  , bitsOf [r.outputs.closeDrive, r.outputs.openDrive, r.outputs.warning, r.outputs.magnet]
  , bitsOf [r.warningTimer.isSome, r.motionTimer.isSome, r.retryTimer.isSome,
      r.packWaitTimer.isSome] ]

/-- Doors 16 n + 1 to 16 n + 16 of a set as a mask word. -/
def doorMask (doors : List (Fin 32)) (n : Nat) : Word :=
  doors.foldl (fun w d => if d.val / 16 = n then w ||| BitVec.twoPow 16 (d.val % 16) else w) 0

/-- The last door end: door number low, outcome high. With none the outcome is 0 (12, Cards), and so is the door
number, the model's choice (LOG 52). -/
def lastDoorEndWord : Option (Fin 32 × OrderOutcome) → Word
  | none => 0
  | some (d, o) => wordOf (deckNumber d + 256 * o.code)

/-- The count `doors` (7.2). -/
def ZoneRecord.doorCount (r : ZoneRecord) : Nat := r.doorStates.length

/-- The count `closed` (7.2). -/
def ZoneRecord.closedCount (r : ZoneRecord) : Nat := r.doorStates.countP fun x => x.2 == .closed

/-- A door state counted as busy (7.2). -/
def DoorState.isBusy : DoorState → Bool
  | .warning | .waiting | .closing | .obstructed => true
  | _ => false

/-- The count `busy` (7.2). -/
def ZoneRecord.busyCount (r : ZoneRecord) : Nat := r.doorStates.countP fun x => x.2.isBusy

/-- The sensor lost note (R130). -/
def ZoneRecord.sensorLost (r : ZoneRecord) : Bool := r.points.any fun p => p.lost

def ZoneRecord.view (r : ZoneRecord) : List Word :=
  [ wordOf r.state.code
  , wordOf r.sealCause.code
  , cardReference r.card
  , bitsOf [r.points[0].active, r.points[0].lost, r.points[1].active, r.points[1].lost]
  , bitsOf [r.alarm]
  , bitsOf [r.sensorLost, r.placementPending, r.alertTimer.isSome, r.staggerTimer.isSome]
  , wordOf r.doorCount
  , wordOf r.closedCount
  , wordOf r.busyCount
  , lastDoorEndWord r.lastDoorEnd
  , doorMask r.startRequests 0
  , doorMask r.startRequests 1 ]

/-- The word of a zone's channel in a slot image: shown while the slot holds it, and otherwise 0, the model's
choice (R195; LOG 52). -/
def channelWord (s : State) (n : Fin 16) (z : Fin 8) : Word :=
  let c := s.channels[z]
  if c.holder = some n then c.token.setWidth 16 ||| wordOf (256 * c.progress.code) else 0

/-- A slot that is FREE shows 0 in every field (R161). -/
def State.slotView (s : State) (n : Fin 16) : List Word :=
  let r := s.slots[n]
  if r.state = .free then []
  else
    [ wordOf (r.state.code + 16 * r.priority.rank + (if r.chime then 0x100 else 0) +
        (if r.resumeOnCut then 0x200 else 0) + (if r.gapTimer.isSome then 0x400 else 0))
    , r.origin.code
    , cardReference r.card
    , r.clip.setWidth 16 ||| (r.zones.setWidth 16 <<< 8)
    , wordOf (r.repeats + 16 * r.repeatsDone + 256 * r.gap + 4096 * r.silentCount)
    , r.arrival
    , r.silent.setWidth 16 ] ++ (List.finRange 8).map (channelWord s n)

def WatchRecord.view (r : WatchRecord) : List Word :=
  [ bitsOf [r.armed]
  , wordOf r.subject.code
  , r.number
  , wordOf r.test.code
  , r.reference
  , r.mask
  , bitsOf [r.post]
  , r.actionCard
  , bitsOf [r.sequence]
  , bitsOf [r.matched, r.aSeen, r.overrun]
  , r.tripCount ]

/-- The shown fields of an image record, word 1 on; the words after them read 0. -/
def State.view (s : State) : RecordId → List Word
  | .station i => s.stations[i].view s.tables.stations[i]
  | .pack p => s.packs[p].view
  | .ramp r => s.ramps[r].view
  | .door d => s.doors[d].view s.tables.doors[d]
  | .zone z => s.zones[z].view
  | .slot n => s.slotView n
  | .watch k => s.watch[k].view

end Sys2Proof.Machine
end

