-- ==== Sys2Proof/Machine/Ops.lean ====
section
/-! DEFINITION. The named operations over memory, records, timers, cards and hand-overs. There is no
exception entry: the part takes commands and raises flags. -/

namespace Sys2Proof.Machine

/-! ### Exchange memory -/

/-- The word at an address; an unlisted address reads 0 (R193, R196). -/
def Memory.read : Memory → Nat → Word
  | [], _ => 0
  | (a, v) :: rest, x => if x = a then v else Memory.read rest x

/-- Write a word, keeping the canonical form: writing 0 removes the entry. -/
def Memory.write : Memory → Nat → Word → Memory
  | [], x, v => if v = 0 then [] else [(x, v)]
  | (a, w) :: rest, x, v =>
    if x < a then (if v = 0 then (a, w) :: rest else (x, v) :: (a, w) :: rest)
    else if x = a then (if v = 0 then rest else (x, v) :: rest)
    else (a, w) :: Memory.write rest x v

/-- The canonical form, for addresses from `low` on. -/
def Memory.wfFrom (low : Nat) : Memory → Bool
  | [] => true
  | (a, v) :: rest =>
    decide (low ≤ a) && decide (a < Config.memoryWords) && decide (v ≠ 0) && Memory.wfFrom (a + 1) rest

/-- Addresses strictly rising and inside exchange memory, no word 0 listed. -/
def Memory.wf (m : Memory) : Bool := Memory.wfFrom 0 m

/-- Write a word of exchange memory. -/
def writeWord (a : Nat) (v : Word) (s : State) : State := { s with mem := s.mem.write a v }

/-! ### Records -/

/-- Apply an operation for every index in ascending order. -/
def forEach (n : Nat) (f : Fin n → State → State) (s : State) : State :=
  (List.finRange n).foldl (fun t i => f i t) s

/-- Apply an operation for every element of a list, in order. -/
def forList {α : Type} (l : List α) (f : α → State → State) (s : State) : State :=
  l.foldl (fun t i => f i t) s

/-- `t` with the records among `ids` noted that show other fields in it than in `s` (LOG 9). -/
def noteChanged (ids : List RecordId) (s t : State) : State :=
  { t with changed := s.changed ++ ids.filter fun id => t.view id != s.view id }

def setStation (i : Fin 48) (r : StationRecord) (s : State) : State :=
  noteChanged [.station i] s { s with stations := s.stations.set i r }
def setPack (p : Fin 2) (r : PackRecord) (s : State) : State :=
  noteChanged [.pack p] s { s with packs := s.packs.set p r }
def setRamp (i : Fin 4) (r : RampRecord) (s : State) : State :=
  noteChanged [.ramp i] s { s with ramps := s.ramps.set i r }
/-- Replace a door record as it is given, outputs included. -/
def putDoor (d : Fin 32) (r : DoorRecord) (s : State) : State :=
  noteChanged [.door d] s { s with doors := s.doors.set d r }
def setZone (z : Fin 8) (r : ZoneRecord) (s : State) : State :=
  noteChanged [.zone z] s { s with zones := s.zones.set z r }
def setSlot (i : Fin 16) (r : SlotRecord) (s : State) : State :=
  noteChanged [.slot i] s { s with slots := s.slots.set i r }
/-- Replace a channel record; the slot that holds the channel, before or after, shows it (R161). -/
def setChannel (z : Fin 8) (r : ChannelRecord) (s : State) : State :=
  noteChanged ((s.channels[z].holder.toList ++ r.holder.toList).map .slot) s
    { s with channels := s.channels.set z r }
def setWatch (k : Fin 8) (r : WatchRecord) (s : State) : State :=
  { s with watch := s.watch.set k r }
def setLine (l : Line) (s : State) : State := { s with line := l }
def setRelation (p : Fin 2) (r : PackRelation) (s : State) : State :=
  { s with doorUnit := { s.doorUnit with relation := s.doorUnit.relation.set p r } }

/-! ### Time -/

/-- Milliseconds from a start to now, modulo 2^32 (00_scope.md, Time). -/
def elapsed (now start : Clock) : Nat := (now - start).toNat

/-- The deck clock moves on. -/
def advanceClock (by_ : Clock) (s : State) : State := { s with clock := s.clock + by_ }

/-- A timer started now with a length in milliseconds. -/
def startTimer (now : Clock) (length : Nat) : Timer := some ⟨now, length⟩

/-- The instant `length` milliseconds after `start` has come: the deck clock stands there, or later if it
is later already (LOG 5). -/
def clockReaches (start : Clock) (length : Nat) (s : State) : State :=
  if elapsed s.clock start < length then { s with clock := start + BitVec.ofNat 32 length } else s

/-- The expiry of a running timer: time has come to its end (LOG 5). -/
def atExpiry (t : RunningTimer) (s : State) : State := clockReaches t.start t.length s

/-! ### Cards -/

/-- A board card (0 to 31). -/
def boardCard (n : Fin 32) : CardId := ⟨n.val, by omega⟩
/-- An action card (0 to 7). -/
def actionCard (k : Fin 8) : CardId := ⟨32 + k.val, by omega⟩
/-- The card is a board card; otherwise an action card. -/
def isBoardCard (c : CardId) : Bool := decide (c.val < 32)

/-- Address of word `k` of a card (12). -/
def cardAddress (c : CardId) (k : Nat) : Nat := Config.cardBase + 16 * c.val + k

/-- Word `k` of a card's body (k from 1). -/
def State.cardWord (s : State) (c : CardId) (k : Nat) : Word := s.mem.read (cardAddress c k)

def State.cardState (s : State) (c : CardId) : CardState := s.cards.shadow[c]

/-- Write a card's state: shadow and state word at once (R178). -/
def setCardState (c : CardId) (st : CardState) (s : State) : State :=
  { s with cards := { s.cards with shadow := s.cards.shadow.set c st } }

/-- Append a card at the tail of the intake list (R180). -/
def appendIntake (c : CardId) (s : State) : State :=
  { s with cards := { s.cards with intake := s.cards.intake ++ [c] } }

/-- Take a card out of the intake list; the cards behind it keep their order (R180). -/
def removeIntake (c : CardId) (s : State) : State :=
  { s with cards := { s.cards with intake := s.cards.intake.filter (· != c) } }

/-- The state written on a card that ends with an outcome (R184). -/
def OrderOutcome.endState : OrderOutcome → CardState
  | .badKind | .badTarget | .badValue | .wrongState | .interlock | .busy | .notConfigured
  | .tableError | .restarted => .refused
  | _ => .done

/-- Write outcome, detail and finish stamp, then the state word; count the end; set ORDERS (R183). -/
def endCardAs (c : CardId) (o : OrderOutcome) (detail : Nat) (st : CardState) (s : State) : State :=
  let s := writeWord (cardAddress c 12) (BitVec.ofNat 16 o.code) s
  let s := writeWord (cardAddress c 13) (BitVec.ofNat 16 detail) s
  let s := writeWord (cardAddress c 14) (s.clock.setWidth 16) s
  let s := writeWord (cardAddress c 15) ((s.clock >>> 16).setWidth 16) s
  let s := setCardState c st s
  let s := { s with cards := { s.cards with completed := s.cards.completed + 1 } }
  raiseFlag .orders s

/-- End a card with an outcome; the outcome fixes the state (R183, R184). -/
def endCard (c : CardId) (o : OrderOutcome) (detail : Nat) (s : State) : State :=
  endCardAs c o detail o.endState s

/-- End the card of an order, if it came from one (R183). -/
def endCardOf (c : Option CardId) (o : OrderOutcome) (detail : Nat) (s : State) : State :=
  match c with
  | some c => endCard c o detail s
  | none => s

/-! ### Hand-overs in flight (LOG 7, LOG 8) -/

/-- Put a hand-over in flight, behind the others; one that is in flight already goes to the end. -/
def handOver (h : Handover) (s : State) : State :=
  { s with handovers := s.handovers.filter (· != h) ++ [h] }

/-- Take a hand-over out of flight. -/
def dropHandover (h : Handover) (s : State) : State :=
  { s with handovers := s.handovers.filter (· != h) }

def State.inFlight (s : State) (h : Handover) : Bool := s.handovers.contains h

/-! ### Order and number helpers -/

/-- The index of a number on deck, if it lies in 1 to n. -/
def ofDeckNumber (n : Nat) (k : Nat) : Option (Fin n) :=
  if h : 1 ≤ k ∧ k ≤ n then some ⟨k - 1, by omega⟩ else none

/-- The index of a slot number, if it lies in 0 to n - 1. -/
def ofSlotNumber (n : Nat) (k : Nat) : Option (Fin n) :=
  if h : k < n then some ⟨k, h⟩ else none

/-- Insert an element before the first one it precedes. -/
def insertBy {α : Type} (precedes : α → α → Bool) (x : α) : List α → List α
  | [] => [x]
  | y :: rest => if precedes x y then x :: y :: rest else y :: insertBy precedes x rest

/-- Sort a list by an order of its elements; equal ones keep their places. -/
def sortBy {α : Type} (precedes : α → α → Bool) (l : List α) : List α :=
  l.foldr (insertBy fun x y => !precedes y x) []

/-- A Bool as a bit at a place of a word. -/
def bitAt (b : Bool) (place : Nat) : Word := if b then BitVec.twoPow 16 place else 0

end Sys2Proof.Machine
end

