-- ==== Sys2Proof/Machine/Pace.lean ====
section
/-! DEFINITION. Pace computation: the history, the averaged pace, the derived times and the mark timer
(05_pace_computation.md). Its results go back to the ramp unit (Ramps.lean). -/

namespace Sys2Proof.Machine

/-- P: the floor of the history's sum over its length; absent while the history is empty (R87, R91). -/
def averagePace (history : List Nat) : Option Nat :=
  match history with
  | [] => none
  | _ :: _ => some (history.sum / history.length)

/-- The settle blank and the lead: the floor of P times a fraction in 128ths (R92). -/
def fractionOf (p fraction : Nat) : Nat := p * fraction / 128

/-- The stall limit for a pace, a multiple and a stall warning count (R92). -/
def stallLimitOf (p multiple warnings : Nat) : Nat :=
  min Config.markTimerMax (if warnings = 0 then p * multiple else 2 * p * multiple)

/-- Set the history and recompute P (R91). -/
def PaceRecord.withHistory (pace : PaceRecord) (history : List Nat) : PaceRecord :=
  { pace with history := history, p := averagePace history }

/-- The seeding at a program start (R89). -/
def PaceRecord.seed (pace : PaceRecord) (e : RampEntry) : PaceRecord :=
  { pace.withHistory (List.replicate e.depth e.nominal) with
    warningCount := 0, l := none, s := none, stallLimit := none }

/-- A timer of `length` ms, stopped when the length is 0. -/
def timerUnlessZero (now : Clock) (length : Nat) : Timer :=
  if length = 0 then none else startTimer now length

/-- Pace computation takes a stage entry, in the order of R90. -/
def PaceRecord.stageEntry (pace : PaceRecord) (e : RampEntry) (st : StageRecord) (now : Clock) :
    PaceRecord :=
  let pace :=
    if st.reseed = 0 then pace else pace.withHistory (List.replicate e.depth st.reseed)
  let s := pace.p.map (fractionOf · e.blank)
  { pace with
    warningCount := 0
    stallLimit := pace.p.map (stallLimitOf · e.stallMultiple 0)
    s := s
    blankTimer := timerUnlessZero now (s.getD 0)
    l := none
    leadTimer := none
    firstMarkPending := true
    markTimer := some now }

/-- The mark timer's value: milliseconds since its restart, held at 65,535 (R88; LOG 23). -/
def PaceRecord.markValue (pace : PaceRecord) (now : Clock) : Nat :=
  match pace.markTimer with
  | some start => min Config.markTimerMax (elapsed now start)
  | none => 0

/-- The per-mark interval of an arrival of k marks after E milliseconds (R94). -/
def perMarkInterval (e k : Nat) : Nat := max 1 (e / k)

/-- k copies of an interval enter at the newest end and push the oldest out (R94). -/
def enterIntervals (history : List Nat) (k interval : Nat) : List Nat :=
  (history ++ List.replicate k interval).drop k

/-- An arrival's intervals are withheld: first mark pending, or the blank timer runs (R95). -/
def PaceRecord.withholds (pace : PaceRecord) : Bool :=
  pace.firstMarkPending || pace.blankTimer.isSome

/-- A mark arrival of k marks, steps 1 to 4 of R94. -/
def PaceRecord.markArrival (pace : PaceRecord) (e : RampEntry) (k : Nat) (now : Clock) : PaceRecord :=
  let pace' :=
    if pace.withholds then pace
    else
      let pace := pace.withHistory
        (enterIntervals pace.history k (perMarkInterval (pace.markValue now) k))
      { pace with stallLimit := pace.p.map (stallLimitOf · e.stallMultiple pace.warningCount) }
  { pace' with firstMarkPending := false, markTimer := some now }

/-- L is computed and the lead timer starts with it, unless it is 0 (R97). -/
def PaceRecord.startLead (pace : PaceRecord) (e : RampEntry) (now : Clock) : PaceRecord :=
  let l := (pace.p.map (fractionOf · e.lead)).getD 0
  { pace with l := some l, leadTimer := timerUnlessZero now l }

/-- A first stall under WARN (R100). -/
def PaceRecord.warnStall (pace : PaceRecord) (e : RampEntry) (now : Clock) : PaceRecord :=
  { pace with
    warningCount := 1
    stallLimit := pace.p.map (stallLimitOf · e.stallMultiple 1)
    firstMarkPending := true
    markTimer := some now }

/-- At a stage end, a hold and a fault the three timers stop (R101). -/
def PaceRecord.stopTimers (pace : PaceRecord) : PaceRecord :=
  { pace with markTimer := none, blankTimer := none, leadTimer := none }

end Sys2Proof.Machine
end

