-- ==== Sys2Proof/WellFormed.lean ====
section
/-! DEFINITION. What a sender may put in the queue. The operands' types already keep every number in its
range (ramp 1 to 4, door 1 to 32, and so on); what is left is checked here. `exec` is total: it says what
happens to an ill-formed command too. -/

namespace Sys2Proof

/-- How long the low period lasts that an answer begins with, in bit times (R7). -/
def Reception.breakLength (rx : Reception) : Nat := (rx.levels.takeWhile (!·)).length

/-- The levels that follow it. -/
def Reception.afterBreak (rx : Reception) : List Bool := rx.levels.dropWhile (!·)

/-- An answer begins with a break whose falling edge lies in the answer window, 11 bit times long or longer (R8). -/
def Reception.beginsInWindow (rx : Reception) : Bool :=
  decide (rx.start < Config.answerWindow) && decide (Config.breakRecognised ≤ rx.breakLength)

/-- The most bit times that a frame received whole lasts after its break: a mark of 8 bit times, ADDRESS, KIND,
LENGTH, 16 payload bytes and CRC, and 4 bit times between two of them (R3, R7). -/
def receptionLongest : Nat :=
  Config.addressGap + 10 * (4 + Config.payloadLongest) + Config.characterGap * (3 + Config.payloadLongest)

/-- What follows the break of an answer is no longer than a frame can be. -/
def Reception.atMostOneFrame (rx : Reception) : Bool := decide (rx.afterBreak.length ≤ receptionLongest)

/-- The word has the restart code 1001 in bits 15-12 (R174). -/
def hasRestartCode (value : Word) : Bool := value.extractLsb' 12 4 == 0b1001#4

/-- Well-formed commands: a write of enables does not carry the restart code (that write is the row
RESTART_COMMAND), and an answer is an answer as R8 and R3 have it. -/
def Instr.wellFormed : Instr → Bool
  | .portControlEnables value => !hasRestartCode value
  | .answerReceived rx _ => rx.beginsInWindow && rx.atMostOneFrame
  | _ => true

end Sys2Proof
end

