-- ==== Sys2Proof/Machine/Operands.lean ====
section
/-! DEFINITION. The forms operands take: the bytes of deck-line frames and the receiving of an answer
(R2 to R9), the order kinds with their targets (R182), and origins. -/

namespace Sys2Proof.Machine

/-! ### CRC and frames -/

/-- One shift of the CRC register: the bit leaving the top selects the polynomial 0x07 (R4). -/
def crcShift (r : Byte) : Byte := if r.msb then (r <<< 1) ^^^ 0x07#8 else r <<< 1

/-- One byte into the CRC register (R4). -/
def crcByte (r b : Byte) : Byte := (List.range 8).foldl (fun x _ => crcShift x) (r ^^^ b)

/-- The CRC of the bytes from ADDRESS through the payload (R4). -/
def crc (bytes : List Byte) : Byte := bytes.foldl crcByte 0

/-- KIND codes (R5). -/
def kindPoll : Byte := 0x01
def kindSet : Byte := 0x02
def kindReport : Byte := 0x11
def kindAck : Byte := 0x12
def kindWait : Byte := 0x13
def kindNak : Byte := 0x14

/-- A frame's bytes: ADDRESS, KIND, LENGTH, payload, CRC (R3). -/
def frameBytes (address kind : Byte) (payload : List Byte) : List Byte :=
  let body := [address, kind, BitVec.ofNat 8 payload.length] ++ payload
  body ++ [crc body]

/-- Bit times a frame of the part lasts: break 14, mark 2, ten for each character (R3). -/
def frameBitTimes (frame : List Byte) : Nat := 16 + 10 * frame.length

/-- The level the line idles at (R2). Levels are `true` for high. -/
def markLevel : Bool := true

/-- The levels of a character, one for each bit time: a start bit at the low level, 8 data bits with the least
significant first, a stop bit at the high level (R2). -/
def characterLevels (b : Byte) : List Bool :=
  (!markLevel) :: (List.range 8).map (fun k => b.getLsbD k) ++ [markLevel]

/-- The levels of a frame the part sends, one for each bit time: a break of 14, a mark of 2, and its characters
with no idle time between them (R2, R3). -/
def frameLevels (frame : List Byte) : List Bool :=
  List.replicate 14 (!markLevel) ++ List.replicate 2 markLevel ++ frame.flatMap characterLevels

/-- A station's address as a byte. -/
def stationAddress (i : Fin 48) : Byte := BitVec.ofNat 8 (i.val + 1)

/-- The deck line's rate in bit/s (R1). -/
def Pins.lineRate (p : Pins) : Nat :=
  match p.strapA, p.strapB with
  | false, false => 38400
  | true, false => 76800
  | false, true => 153600
  | true, true => 307200

/-- The report length of a station kind (R6). -/
def StationKind.reportLength : StationKind → Nat
  | .none => 0
  | .door => 2
  | .ramp => 2
  | .pack => 1
  | .call => 2
  | .sensor => 1

/-- The image length of a station kind; 0: no SET is sent (R6). -/
def StationKind.imageLength : StationKind → Nat
  | .none => 0
  | .door => 2
  | .ramp => 1
  | .pack => 1
  | .call => 4
  | .sensor => 0

/-- The kind takes SETs (R5). -/
def StationKind.takesSets (k : StationKind) : Bool := k.imageLength != 0

/-- The confirmed inputs of a kind, as bits of the report word (R6, R24). -/
def StationKind.inputMask : StationKind → Word
  | .none => 0
  | .door => 0x7777
  | .ramp => 0x0300
  | .pack => 0x0007
  | .call => 0x0100
  | .sensor => 0x000F

/-- The kind reports a count that is not confirmed (R24). -/
def StationKind.hasCount : StationKind → Bool
  | .ramp | .call => true
  | _ => false

/-- Byte `k` of an image, from 0. -/
def imageByte (image : BitVec 32) (k : Nat) : Byte := image.extractLsb' (8 * k) 8

/-- The image bytes a SET carries (R6). -/
def imageBytes (kind : StationKind) (image : BitVec 32) : List Byte :=
  (List.range kind.imageLength).map (imageByte image)

/-- The report bytes as one word: byte 1 low, byte 2 high. -/
def reportWord (payload : List Byte) : Word :=
  (payload.getD 0 0).setWidth 16 ||| ((payload.getD 1 0).setWidth 16 <<< 8)

/-! ### Receiving an answer -/

/-- One thing the receiver makes out on the line after the break of an answer (R2, R7). -/
inductive RxItem where
  /-- A character: idle bit times before its start bit, its byte, and whether its stop bit was high. -/
  | char (gap : Nat) (byte : Byte) (stopHigh : Bool)
  /-- The line held low for 11 bit times after `gap` idle bit times: a break inside the frame. -/
  | lowRun (gap : Nat)
deriving DecidableEq, Repr

/-- The byte whose bits, least significant first, are the line's next levels (R2). -/
def byteOfLevels (levels : List Bool) : Byte :=
  (List.range 8).foldl (fun b k => if levels.getD k markLevel then b ||| BitVec.twoPow 8 k else b) 0

/-- Sample the line: `gap` high bit times have passed, and the next low one is a start bit. A stop bit that is
low is a framing fault; the line low for 11 bit times from a start bit on is a break (R2, R7). -/
def sampleLevels : Nat → Nat → List Bool → List RxItem
  | n + 1, gap, true :: rest => sampleLevels n (gap + 1) rest
  | n + 1, gap, false :: rest =>
    if (List.range 10).all fun k => !rest.getD k markLevel then [.lowRun gap]
    else
      .char gap (byteOfLevels rest) (rest.getD 8 markLevel) :: sampleLevels n 0 (rest.drop 9)
  | _, _, _ => []

/-- What the receiver makes out after the break of an answer. -/
def receivedItems (rx : Reception) : List RxItem := sampleLevels rx.levels.length 0 rx.afterBreak

/-- Take `need` characters (R7). `gap` is the longest idle allowed before the first of them; a start bit at
exactly that many bit times is within it (LOG 36). Answers the bytes taken, or `none` when reception ends
early. -/
def takeCharacters : Nat → Nat → List RxItem → Option (List Byte × List RxItem)
  | 0, _, items => some ([], items)
  | need + 1, gap, .char g b stopHigh :: rest =>
    if g ≤ gap && stopHigh then
      match takeCharacters need Config.characterGap rest with
      | some (bytes, left) => some (b :: bytes, left)
      | none => none
    else none
  | _ + 1, _, _ => none

/-- Receive a frame: whole (`some` of its bytes, ADDRESS to CRC) or ended early (`none`), by the
conditions of R7. -/
def receiveFrame (rx : Reception) : Option (List Byte) :=
  if rx.breakLength ≤ Config.breakLongest then
    match takeCharacters 3 Config.addressGap (receivedItems rx) with
    | some ([a, k, n], rest) =>
      if n.toNat ≤ Config.payloadLongest then
        match takeCharacters (n.toNat + 1) Config.characterGap rest with
        | some (tail, _) => some ([a, k, n] ++ tail)
        | none => none
      else none
    | _ => none
  else none

/-- The results of judging an answer (R9). -/
inductive Judgement where
  | answered (payload : List Byte)
  | waited
  | naked
  | corrupt
deriving DecidableEq, Repr

/-- Judge an answer to a frame: the first line of R9's table that applies. -/
def judgeAnswer (kind : StationKind) (t : Transaction) (received : Option (List Byte)) : Judgement :=
  match received with
  | some (a :: k :: n :: tail) =>
    let payload := tail.dropLast
    if tail.getLast? != some (crc ([a, k, n] ++ payload)) then .corrupt
    else if a != stationAddress t.station then .corrupt
    else if k == kindWait && n == 0 then .waited
    else if k == kindNak && n == 0 then .naked
    else if !t.isSet && k == kindReport && n.toNat == kind.reportLength then .answered payload
    else if t.isSet && k == kindAck && n == 1 && payload == [t.sequence] then .answered payload
    else .corrupt
  | _ => .corrupt

/-! ### Order kinds -/

/-- The order kinds (12, Cards). -/
inductive OrderKind where
  | loadTable | startDeck | cancel
  | stationEnable | stationDisable
  | rampLower | rampRaise | rampHold | rampResume | rampClear
  | doorClose | doorOpen | doorClear
  | zoneAlert | zoneSeal | zoneRelease
  | call | callStop
  | watchArm | watchDisarm | watchClear
deriving DecidableEq, Repr

/-- Kind codes (12, Cards). -/
def OrderKind.code : OrderKind → Nat
  | .loadTable => 0x01
  | .startDeck => 0x02
  | .cancel => 0x03
  | .stationEnable => 0x10
  | .stationDisable => 0x11
  | .rampLower => 0x20
  | .rampRaise => 0x21
  | .rampHold => 0x22
  | .rampResume => 0x23
  | .rampClear => 0x24
  | .doorClose => 0x30
  | .doorOpen => 0x31
  | .doorClear => 0x32
  | .zoneAlert => 0x40
  | .zoneSeal => 0x41
  | .zoneRelease => 0x42
  | .call => 0x50
  | .callStop => 0x51
  | .watchArm => 0x60
  | .watchDisarm => 0x61
  | .watchClear => 0x62

/-- Every order kind. -/
def OrderKind.all : List OrderKind :=
  [.loadTable, .startDeck, .cancel, .stationEnable, .stationDisable, .rampLower, .rampRaise,
    .rampHold, .rampResume, .rampClear, .doorClose, .doorOpen, .doorClear, .zoneAlert, .zoneSeal,
    .zoneRelease, .call, .callStop, .watchArm, .watchDisarm, .watchClear]

/-- The order kind of a kind code (R182). -/
def OrderKind.ofCode (w : Word) : Option OrderKind :=
  OrderKind.all.find? (fun k => k.code == w.toNat)

/-- The targets of a kind: least and greatest (R182). -/
def OrderKind.targets : OrderKind → Nat × Nat
  | .loadTable => (1, 5)
  | .startDeck => (0, 0)
  | .cancel => (0, 31)
  | .stationEnable | .stationDisable => (1, 48)
  | .rampLower | .rampRaise | .rampHold | .rampResume | .rampClear => (1, 4)
  | .doorClose | .doorOpen | .doorClear => (1, 32)
  | .zoneAlert | .zoneSeal | .zoneRelease => (1, 8)
  | .call => (0, 0)
  | .callStop => (0, 15)
  | .watchArm | .watchDisarm | .watchClear => (0, 7)

/-- The kinds taken in UNCONFIGURED (R182). -/
def OrderKind.takenUnconfigured : OrderKind → Bool
  | .loadTable | .startDeck | .cancel => true
  | _ => false

/-- The kind of the card in word 1 of its body. -/
def State.cardKind (s : State) (c : CardId) : Option OrderKind := OrderKind.ofCode (s.cardWord c 1)

/-- The card's target, word 3. -/
def State.cardTarget (s : State) (c : CardId) : Nat := (s.cardWord c 3).toNat

/-- The card's parameter `k`, 1 to 8, in words 4 to 11. -/
def State.cardParameter (s : State) (c : CardId) (k : Nat) : Word := s.cardWord c (3 + k)

/-- A yes-or-no field: 0 no, 1 yes (R195). -/
def yesNo (w : Word) : Option Bool :=
  if w = 0 then some false else if w = 1 then some true else none

/-- The origin of a demand placed by a card: HOST or WATCH (R167, R182). -/
def cardOrigin (c : CardId) : DoorOrigin := if isBoardCard c then .host else .watch

/-- The seal cause of a card's origin (R139). -/
def cardSealCause (c : CardId) : SealCause := if isBoardCard c then .host else .watch

/-- The zones as a set: bit z stands for zone z + 1 (R195). -/
def zoneBit (z : Fin 8) : BitVec 8 := BitVec.twoPow 8 z.val

def hasZone (set : BitVec 8) (z : Fin 8) : Bool := set.getLsbD z.val

def withoutZone (set : BitVec 8) (z : Fin 8) : BitVec 8 := set &&& ~~~ zoneBit z

end Sys2Proof.Machine
end

