-- ==== Sys2Proof/Machine/Line.lean ====
section
/-! DEFINITION. The line controller: the pending SET list, the owed set, the choosing of transactions,
and the course of a transaction (01_deck_line.md). -/

namespace Sys2Proof.Machine

/-- The station's kind from the adopted station table (R24, R26). -/
def State.stationKind (s : State) (i : Fin 48) : StationKind := s.tables.stations[i].kind

/-- Driver enable is asserted while a frame is being sent (R2). -/
def Line.driverEnable (l : Line) : Bool := l.mode == .sending

/-- The level of the transmit data pin, n bit times after the frame being sent began: the frame's own, and mark
while no frame is sent (R2, R3). -/
def Line.transmitLevel (l : Line) (n : Nat) : Bool :=
  match l.transaction with
  | some t => if l.driverEnable then (frameLevels t.frame).getD n markLevel else markLevel
  | none => markLevel

/-! ### The pending SET list -/

/-- Replace a station's entry in place or append one at the tail; URGENT stays (R16). -/
def putPending : List PendingSet → Fin 48 → BitVec 32 → Bool → List PendingSet
  | [], i, image, urgent => [⟨i, image, urgent⟩]
  | e :: rest, i, image, urgent =>
    if e.station = i then ⟨i, image, e.urgent || urgent⟩ :: rest
    else e :: putPending rest i image urgent

/-- The station's entry on the list. -/
def Line.entry? (l : Line) (i : Fin 48) : Option PendingSet := l.pending.find? (·.station == i)

/-- Take the station's entry off the list (R17, R19). -/
def Line.removeEntry (l : Line) (i : Fin 48) : Line :=
  { l with pending := l.pending.filter (·.station != i) }

/-- A queue request (R16). It is taken in every state of the line controller. -/
def queueRequest (i : Fin 48) (image : BitVec 32) (urgent : Bool) (s : State) : State :=
  setLine { s.line with pending := putPending s.line.pending i image urgent } s

/-! ### Choosing a transaction -/

/-- A station qualifies for a roster visit at a cycle count (R21). -/
def State.qualifies (s : State) (i : Fin 48) (cycle : Fin 4) : Bool :=
  s.stationKind i != .none &&
    match s.stations[i].state with
    | .absent | .present => true
    | .lost => cycle == 0
    | .disabled => false

/-- The roster position after one, and the cycle count, which advances at the wrap (R21). -/
def rosterNext (pos : Fin 48) (cycle : Fin 4) : Fin 48 × Fin 4 :=
  if pos = 47 then (0, cycle + 1) else (pos + 1, cycle)

/-- A roster visit over at most `fuel` stations: the first that qualifies, and the position and count
after it (R21). -/
def rosterSearch (s : State) : Nat → Fin 48 → Fin 4 → Option (Fin 48 × Fin 48 × Fin 4)
  | 0, _, _ => none
  | fuel + 1, pos, cycle =>
    let after := rosterNext pos cycle
    if s.qualifies pos cycle then some (pos, after.1, after.2)
    else rosterSearch s fuel after.1 after.2

/-- Four wraps of 48 stations: a visit that finds none is back where it started (R21). -/
def State.rosterVisit (s : State) : Option (Fin 48 × Fin 48 × Fin 4) :=
  rosterSearch s 192 s.line.rosterPos s.line.cycle

/-- The fast set: PRESENT stations that serve a ramp in MOVING (R22), in ascending address. -/
def State.fastSet (s : State) : List (Fin 48) :=
  (List.finRange 48).filter fun i =>
    s.stations[i].state == .present &&
      (List.finRange 4).any fun r =>
        match s.tables.ramps[r] with
        | some e => e.station == i && s.ramps[r].state == .moving
        | none => false

/-- A fast visit: the smallest address above the fast position, else the smallest (R22). -/
def State.fastVisit (s : State) : Option (Fin 48) :=
  match s.fastSet.find? (fun i => decide (s.line.fastPos < i.val + 1)) with
  | some i => some i
  | none => s.fastSet.head?

/-- Begin a POLL of a station. -/
def beginPoll (i : Fin 48) (l : Line) : Line :=
  { l with
    mode := .sending
    transaction := some
      { station := i, isSet := false, attempts := 1, sequence := 0, image := 0,
        frame := frameBytes (stationAddress i) kindPoll [], waited := false, removal := false,
        discard := false, last := .noAnswer } }

/-- A poll from the roster: the position moves on and the mark becomes FAST (R21, R22). -/
def rosterPoll (v : Fin 48 × Fin 48 × Fin 4) (l : Line) : Line :=
  beginPoll v.1 { l with rosterPos := v.2.1, cycle := v.2.2, nextSide := .fast }

/-- A poll from the fast set: the fast position moves on and the mark becomes ROSTER (R22). -/
def fastPoll (i : Fin 48) (l : Line) : Line :=
  beginPoll i { l with fastPos := i.val + 1, nextSide := .roster }

/-- The poll R22 takes: from the side of the mark if it has a station to visit, else from the other. -/
def choosePoll (s : State) : Line :=
  match s.line.nextSide, s.rosterVisit, s.fastVisit with
  | .roster, some v, _ => rosterPoll v s.line
  | .roster, none, some i => fastPoll i s.line
  | .fast, _, some i => fastPoll i s.line
  | .fast, some v, none => rosterPoll v s.line
  | _, none, none => s.line

/-- The frame of a SET: sequence number, then the image (R5). -/
def setFrame (kind : StationKind) (i : Fin 48) (sequence : Byte) (image : BitVec 32) : List Byte :=
  frameBytes (stationAddress i) kindSet (sequence :: imageBytes kind image)

/-- Begin a SET of an entry: the station's sequence number advances, and the first attempt carries the new
number and the entry's image (R13). -/
def beginSet (e : PendingSet) (s : State) : State :=
  let r := s.stations[e.station]
  let sequence := r.sequence + 1
  let s := setStation e.station { r with sequence := sequence } s
  setLine
    { s.line with
      mode := .sending
      transaction := some
        { station := e.station, isSet := true, attempts := 1, sequence := sequence, image := e.image,
          frame := setFrame (s.stationKind e.station) e.station sequence e.image, waited := false,
          removal := false, discard := false, last := .noAnswer } } s

/-- The entry R20 chooses: the oldest URGENT one, or after a POLL the oldest. -/
def Line.chooseEntry (l : Line) : Option PendingSet :=
  match l.pending.find? (·.urgent) with
  | some e => some e
  | none => if l.lastWasPoll then l.pending.head? else none

/-- The idle line controller chooses a transaction and begins to send it (R20). It is run at the end of
every command; while it is not IDLE nothing is chosen (LOG 11). -/
def chooseTransaction (s : State) : State :=
  if s.line.mode = .idle then
    match s.line.chooseEntry with
    | some e => beginSet e s
    | none => setLine (choosePoll s) s
  else s

/-! ### The course of a transaction -/

/-- Settling begins (R12). -/
def settle (time : Nat) (l : Line) : Line := { l with mode := .settling, settleTime := time }

/-- The settle time after an attempt (R12). -/
def settleTimeOf : LineOutcome → Nat
  | .corrupt => Config.settleCorrupt
  | _ => Config.settleOther

/-- The transaction has ended: it is the previous transaction of R20. -/
def endTransaction (t : Transaction) (l : Line) : Line :=
  { l with transaction := none, lastWasPoll := !t.isSet }

/-- Settle the entry of an ended SET (R17): it leaves the list when its image is the one last carried, and
after exhausted attempts the station is then owed (R18). -/
def settleEntry (t : Transaction) (o : LineOutcome) (l : Line) : Line :=
  match l.entry? t.station with
  | none => l
  | some e =>
    if e.image = t.image then
      let l := l.removeEntry t.station
      if o = .answered then l else { l with owed := l.owed.set t.station (some e.urgent) }
    else l

/-- The owed mark goes at the station's next ANSWERED SET (R18). -/
def clearOwed (i : Fin 48) (l : Line) : Line := { l with owed := l.owed.set i none }

/-- The line controller's part of the end of a SET transaction. -/
def endSet (t : Transaction) (o : LineOutcome) (l : Line) : Line :=
  let l := endTransaction t l
  if t.removal then clearOwed t.station (l.removeEntry t.station)
  else
    let l := settleEntry t o l
    if o = .answered then clearOwed t.station l else l

/-- The line controller's part of the end of a POLL: an owed station that answered has its current image
queued with the owed mark (R18). -/
def endPoll (t : Transaction) (o : LineOutcome) (s : State) : State :=
  let s := setLine (endTransaction t s.line) s
  match o, s.line.owed[t.station] with
  | .answered, some urgent =>
    let s := queueRequest t.station s.stations[t.station].image urgent s
    setLine (clearOwed t.station s.line) s
  | _, _ => s

/-- An attempt of a SET ends the transaction: it is ANSWERED, it is the third, or removal was requested
(R11, R19). -/
def Transaction.endsAfter (t : Transaction) (o : LineOutcome) : Bool :=
  o == .answered || decide (Config.setAttempts ≤ t.attempts) || t.removal

/-- What the end of an attempt leaves to be handed over: nothing, or the transaction with its final
outcome (R11, R14). -/
structure AttemptEnd where
  state : State
  final : Bool

/-- An attempt ends with an outcome (R11, R12, R17, R18). An outcome under R23's discard is handed to
nobody. -/
def endAttempt (t : Transaction) (o : LineOutcome) (s : State) : AttemptEnd :=
  let s := setLine (settle (settleTimeOf o) s.line) s
  if t.discard then ⟨setLine (endTransaction t s.line) s, false⟩
  else if !t.isSet then ⟨endPoll t o s, true⟩
  else if t.endsAfter o then ⟨setLine (endSet t o s.line) s, true⟩
  else ⟨setLine { s.line with transaction := some { t with last := o } } s, false⟩

/-- A first WAIT: the line controller keeps the line idle for one answer window (R10). -/
def pauseAfterWait (t : Transaction) (s : State) : State :=
  setLine { s.line with mode := .paused, transaction := some { t with waited := true } } s

/-- The next attempt of a SET: it carries the entry's image, with a new number if the image changed (R11,
R13). -/
def nextAttempt (t : Transaction) (e : PendingSet) (s : State) : State :=
  let r := s.stations[t.station]
  let sequence := if e.image = t.image then t.sequence else r.sequence + 1
  let s := setStation t.station { r with sequence := sequence } s
  setLine
    { s.line with
      mode := .sending
      settleTime := 0
      transaction := some
        { t with
          attempts := t.attempts + 1, sequence := sequence, image := e.image,
          frame := setFrame (s.stationKind t.station) t.station sequence e.image, waited := false } } s

/-- Settling ends: the further attempt, or IDLE (R12). -/
def endSettling (s : State) : State :=
  match s.line.transaction with
  | some t =>
    match s.line.entry? t.station with
    | some e => nextAttempt t e s
    | none => setLine { endTransaction t s.line with mode := .idle, settleTime := 0 } s
  | none => setLine { s.line with mode := .idle, settleTime := 0 } s

/-! ### Removal, adoption, restart -/

/-- A SET of the station is in flight. -/
def Line.setInFlight (l : Line) (i : Fin 48) : Option Transaction :=
  match l.transaction with
  | some t => if t.isSet && t.station == i && !t.discard then some t else none
  | none => none

/-- A removal request (R19). The hand-over of a transaction it ends is for a station that is DISABLED or
LOST: R27 and R28 discard it, so nothing is handed over here. -/
def removalRequest (i : Fin 48) (s : State) : State :=
  let l := clearOwed i s.line
  match l.setInFlight i with
  | none => setLine (l.removeEntry i) s
  | some t =>
    match l.mode with
    | .paused =>
      setLine (settle (settleTimeOf .noAnswer) (endTransaction t (l.removeEntry i))) s
    | .settling => setLine (endTransaction t (l.removeEntry i)) s
    | _ => setLine { l with transaction := some { t with removal := true } } s

/-- Adoption of a station table: lists and positions are emptied; a transaction in flight runs to its end
without further attempts and its outcome is discarded (R23). -/
def lineAdoptStations (s : State) : State :=
  let l := { Line.start with
    mode := s.line.mode, lastWasPoll := s.line.lastWasPoll, settleTime := s.line.settleTime }
  match s.line.transaction with
  | none => setLine l s
  | some t =>
    if s.line.mode = .settling then setLine (endTransaction t l) s
    else setLine { l with transaction := some { t with discard := true } } s

end Sys2Proof.Machine
end

