-- ==== Sys2Proof/Machine/Stations.lean ====
section
/-! DEFINITION. The station table's output side: composing a station's image from its owner's
contributions and making queue requests (2.8), and the inputs of a report (R6, R32). -/

namespace Sys2Proof.Machine

/-! ### Which records a station serves (R24) -/

/-- The adopted ramp entry, or `none` when the ramp is not fitted. -/
def State.rampEntry (s : State) (r : Fin 4) : Option RampEntry := s.tables.ramps[r]

/-- The adopted door entry, or `none` when the door's kind is NONE. -/
def State.doorEntry (s : State) (d : Fin 32) : Option DoorEntry := s.tables.doors[d]

def State.packEntry (s : State) (p : Fin 2) : PackEntry := s.tables.packs[p]

def State.zoneEntry (s : State) (z : Fin 8) : ZoneEntry := s.tables.zones[z]

/-- The ramps whose entry names the station. -/
def State.rampsOn (s : State) (i : Fin 48) : List (Fin 4) :=
  (List.finRange 4).filter fun r =>
    match s.rampEntry r with
    | some e => e.station == i
    | none => false

/-- The doors whose entry names the station. -/
def State.doorsOn (s : State) (i : Fin 48) : List (Fin 32) :=
  (List.finRange 32).filter fun d =>
    match s.doorEntry d with
    | some e => e.station == i
    | none => false

/-- The packs whose entry names the station. -/
def State.packsOn (s : State) (i : Fin 48) : List (Fin 2) :=
  (List.finRange 2).filter fun p => s.tables.packs[p].station == some i

/-- The zones whose entry names the station as call station. -/
def State.zonesCalling (s : State) (i : Fin 48) : List (Fin 8) :=
  (List.finRange 8).filter fun z => s.tables.zones[z].callStation == some i

/-! ### Composition -/

/-- A door's contribution as four bits: close drive, open drive, warning, magnet (R6). -/
def DoorOutputs.bits (o : DoorOutputs) : BitVec 32 :=
  (if o.closeDrive then 1 else 0) ||| (if o.openDrive then 2 else 0) |||
    (if o.warning then 4 else 0) ||| (if o.magnet then 8 else 0)

/-- The image of a DOOR station: four bits for each point (R6, R36). -/
def doorImage (s : State) (i : Fin 48) : BitVec 32 :=
  (s.doorsOn i).foldl (fun image d =>
    match s.doorEntry d with
    | some e => image ||| (s.doors[d].outputs.bits <<< (4 * e.point.val))
    | none => image) 0

/-- The image of a CALL station: action, clip, chime, token (R6). NONE and STOP give no clip, chime or
token; an output that nothing drives is held off (R36; LOG 13). -/
def CallContribution.image : CallContribution → BitVec 32
  | .none => 0
  | .play clip chime token =>
    1 ||| (clip.setWidth 32 <<< 8) ||| ((if chime then 1 else 0) <<< 16) ||| (token.setWidth 32 <<< 24)
  | .stop => 2

/-- The composed image of a station from the contributions of its owner (R36). -/
def composeImage (s : State) (i : Fin 48) : BitVec 32 :=
  match s.stationKind i with
  | .door => doorImage s i
  | .ramp =>
    match s.rampsOn i with
    | r :: _ => s.ramps[r].valves.setWidth 32
    | [] => 0
  | .pack =>
    match s.packsOn i with
    | p :: _ => if s.packs[p].pumpRun then 1 else 0
    | [] => 0
  | .call =>
    match s.zonesCalling i with
    | z :: _ => s.channels[z].contribution.image
    | [] => 0
  | .sensor | .none => 0

/-- The queue request a change of the composed image makes, by the station's state (R37). -/
def requestForChange (i : Fin 48) (image : BitVec 32) (urgent : Bool) (s : State) : State :=
  if (s.stationKind i).takesSets then
    match s.stations[i].state with
    | .absent | .present => queueRequest i image urgent s
    | .lost => if s.stations[i].rejoinPending then queueRequest i image true s else s
    | .disabled => s
  else s

/-- A new contribution for a station: its image is recomposed, and a change makes a queue request (R36,
R37). -/
def contribute (i : Fin 48) (urgent : Bool) (s : State) : State :=
  let image := composeImage s i
  if image = s.stations[i].image then s
  else requestForChange i image urgent (setStation i { s.stations[i] with image := image } s)

/-- At adoption of a table every station's image is recomposed, with ordinary requests (R36, R37). -/
def recomposeAll (s : State) : State := forEach 48 (fun i => contribute i false) s

/-- Contribute for the station of a fitted ramp. -/
def contributeRamp (r : Fin 4) (urgent : Bool) (s : State) : State :=
  match s.rampEntry r with
  | some e => contribute e.station urgent s
  | none => s

/-- Contribute for the station of a fitted door. -/
def contributeDoor (d : Fin 32) (urgent : Bool) (s : State) : State :=
  match s.doorEntry d with
  | some e => contribute e.station urgent s
  | none => s

/-- Contribute for the station of a fitted pack. -/
def contributePack (p : Fin 2) (urgent : Bool) (s : State) : State :=
  match (s.packEntry p).station with
  | some i => contribute i urgent s
  | none => s

/-- Contribute for the call station of a zone; a zone with none hands nothing (R159). -/
def contributeChannel (z : Fin 8) (urgent : Bool) (s : State) : State :=
  match (s.zoneEntry z).callStation with
  | some i => contribute i urgent s
  | none => s

/-! ### Station states as the owners see them -/

/-- PRESENT with report awaited no. -/
def State.reported (s : State) (i : Fin 48) : Bool :=
  s.stations[i].state == .present && !s.stations[i].reportAwaited

/-- LOST or DISABLED. -/
def State.lostOrDisabled (s : State) (i : Fin 48) : Bool :=
  s.stations[i].state == .lost || s.stations[i].state == .disabled

/-- Bit `k` of a word. -/
def bitOf (w : Word) (k : Nat) : Bool := w.getLsbD k

end Sys2Proof.Machine
end

