-- ==== Sys2Proof/Machine/Packs.lean ====
section
/-! DEFINITION. The pack arbiter: requests, choosing, granting, pump start, release and parking
(03_hydraulic_power_packs.md). Failure notices, which call on the ramp unit and the door unit, stand in
PackNotices.lean. -/

namespace Sys2Proof.Machine

/-- The requester choosing designates: the first SEAL entry, else the oldest entry (R46). -/
def designate (l : List PackRequest) : Option Requester :=
  match l.find? (·.cls == .seal) with
  | some e => some e.requester
  | none => l.head?.map (·.requester)

/-- The requester's entry on the list. -/
def PackRecord.entry? (r : PackRecord) (q : Requester) : Option PackRequest :=
  r.requests.find? (·.requester == q)

/-- The pump stands ready with nobody using or asking for it (R51). -/
def PackRecord.unused (r : PackRecord) : Bool :=
  r.state == .ready && (r.parked || r.holder == none) && r.requests.isEmpty

/-- The park-hold timer runs exactly while the pack is READY, its holder is parked or none, and its list is
empty; it starts with the full park hold (R51). -/
def judgeParkHold (p : Fin 2) (s : State) : State :=
  let r := s.packs[p]
  if r.unused then
    match r.parkHoldTimer with
    | some _ => s
    | none =>
      setPack p { r with parkHoldTimer := startTimer s.clock (1000 * (s.packEntry p).parkHold) } s
  else setPack p { r with parkHoldTimer := none } s

/-- A grant (R47): the requester becomes the holder, its entry leaves the list, designation is remade, and
a grant notice is handed to it. A preemption demand still in flight fell to the holder before (R53). -/
def grant (p : Fin 2) (q : Requester) (s : State) : State :=
  let r := s.packs[p]
  let rest := r.requests.filter (·.requester != q)
  let s := setPack p
    { r with
      holder := some q, parked := false, parkOnDeck := false, preemptionDemanded := false,
      requests := rest, designated := designate rest, parkHoldTimer := none } s
  let s := { s with handovers := s.handovers.filter fun h =>
    match h with
    | .preemption p' _ => p' != p
    | _ => true }
  handOver (.grant p q) s

/-- Pump start (R49): STARTING, pump run on (ordinary), the start timer runs with the start limit. -/
def startPump (p : Fin 2) (s : State) : State :=
  let s := setPack p
    { s.packs[p] with
      state := .starting, pumpRun := true, pumpDelivered := false,
      startTimer := startTimer s.clock (1000 * (s.packEntry p).startLimit) } s
  contributePack p false s

/-- A parked holder's pack may pass to the designated requester (R46). -/
def PackRecord.mayPass (r : PackRecord) (q : Requester) : Bool :=
  match r.holder with
  | some h => h == q || h == .doorUnit || r.parkOnDeck
  | none => true

/-- Choosing (R46): designate, then act by the pack's state. -/
def choose (p : Fin 2) (s : State) : State :=
  let r := { s.packs[p] with designated := designate s.packs[p].requests }
  let s := setPack p r s
  match r.state, r.designated with
  | .idle, some _ => startPump p s
  | .ready, some q =>
    if (r.holder == none || r.parked) && r.mayPass q then grant p q s else s
  | _, _ => s

/-- The preemption test (R53): a SEAL entry waits while a ramp holds the READY pack, not parked. -/
def preemptionTest (p : Fin 2) (s : State) : State :=
  let r := s.packs[p]
  match r.holder with
  | some (.ramp h) =>
    if r.state = .ready ∧ r.parked = false ∧ r.preemptionDemanded = false ∧
        r.requests.any (·.cls == .seal) then
      handOver (.preemption p h) (setPack p { r with preemptionDemanded := true } s)
    else s
  | _ => s

/-- A withdrawal reaches the arbiter (R45). -/
def takeWithdrawal (p : Fin 2) (q : Requester) (s : State) : State :=
  let r := s.packs[p]
  match r.entry? q with
  | some _ =>
    let s := setPack p { r with requests := r.requests.filter (·.requester != q) } s
    judgeParkHold p (choose p s)
  | none => s

/-- A requester withdraws: the withdrawal is in flight until the arbiter takes it (LOG 7). -/
def withdraw (p : Fin 2) (q : Requester) (s : State) : State := handOver (.withdrawal p q) s

/-- A withdrawal still in flight is taken before its requester's next request (LOG 8). -/
def settleWithdrawal (p : Fin 2) (q : Requester) (s : State) : State :=
  if s.inFlight (.withdrawal p q) then takeWithdrawal p q (dropHandover (.withdrawal p q) s) else s

/-- The list after a request with a class: the entry's class replaced in place, or a new entry at the tail
(R44). -/
def putRequest (l : List PackRequest) (q : Requester) (c : RequestClass) : List PackRequest :=
  if l.any (·.requester == q) then
    l.map fun e => if e.requester = q then { e with cls := c } else e
  else l ++ [⟨q, c⟩]

/-- A request (R44): it has no effect from a holder that is not parked and has no entry; otherwise the list
changes and choosing runs, then the preemption test. -/
def requestPack (p : Fin 2) (q : Requester) (c : RequestClass) (s : State) : State :=
  let s := settleWithdrawal p q s
  let r := s.packs[p]
  if (r.entry? q).isNone && r.holder == some q && !r.parked then s
  else
    let s := setPack p { r with requests := putRequest r.requests q c, parkHoldTimer := none } s
    judgeParkHold p (preemptionTest p (choose p s))

/-- The ramp's park is already known to be on the deck at its release (R48, R51; LOG 12): its station is
LOST or DISABLED, or it is PRESENT with a composed image of all valves off and no SET pending, in flight or
owed. A ramp that LOAD TABLE RAMPS has left not fitted, and that releases a pack at a grant notice still in
flight (R67), has no station to wait for: its park is on the deck at once, and one that the table has moved to
another station is judged at that one, the model's choice (LOG 56). -/
def parkAlreadyOnDeck (r : Fin 4) (s : State) : Bool :=
  match s.rampEntry r with
  | some e =>
    s.lostOrDisabled e.station ||
      (s.stations[e.station].state == .present && s.stations[e.station].image == 0 &&
        (s.line.entry? e.station).isNone && (s.line.setInFlight e.station).isNone &&
        s.line.owed[e.station] == none)
  | none => true

/-- A release (R51); from a requester that is not the holder it is taken as a withdrawal (R45). -/
def releasePack (p : Fin 2) (q : Requester) (s : State) : State :=
  let r := s.packs[p]
  if r.holder = some q then
    let onDeck := match q with
      | .ramp h => parkAlreadyOnDeck h s
      | .doorUnit => false
    judgeParkHold p (choose p (setPack p { r with parked := true, parkOnDeck := onDeck } s))
  else takeWithdrawal p q s

/-- The park of a ramp reaches the deck, or its station is lost: every pack that the ramp still holds parked
has its park on deck, be it one that the ramp table named before its last adoption (R48). -/
def parkReachesDeck (h : Fin 4) (s : State) : State :=
  forEach 2 (fun p s =>
    let r := s.packs[p]
    if r.holder = some (.ramp h) ∧ r.parked = true then
      judgeParkHold p (choose p (setPack p { r with parkOnDeck := true } s))
    else s) s

/-- Entry to READY (R50): the start timer stops, pump delivered stays yes, choosing runs. -/
def enterReady (p : Fin 2) (s : State) : State :=
  judgeParkHold p (choose p
    (setPack p { s.packs[p] with state := .ready, startTimer := none, pumpDelivered := true } s))

/-- READY once pump run was delivered and pressure is confirmed (R50). Confirmed is what the record's input says,
as last handed to the arbiter, also after an adoption has set it to 0 (R43): the model's choice (LOG 49). -/
def judgeReady (p : Fin 2) (s : State) : State :=
  let r := s.packs[p]
  if r.state = .starting ∧ r.pumpDelivered = true ∧ r.pressureReady = true then enterReady p s else s

/-- Recovery (R56): dwell over, station reported, no fault, no pressure, the two inputs as the record has them
(LOG 49). -/
def judgeRecovery (p : Fin 2) (s : State) : State :=
  let r := s.packs[p]
  match (s.packEntry p).station with
  | some i =>
    if r.state = .failed ∧ r.startTimer = none ∧ s.reported i = true ∧ r.packFault = false ∧
        r.pressureReady = false then
      choose p (setPack p { r with state := .idle } s)
    else s
  | none => s

/-- The park hold runs out (R52). -/
def parkHoldOver (p : Fin 2) (s : State) : State :=
  let s := setPack p
    { s.packs[p] with
      state := .idle, holder := none, parked := false, parkOnDeck := false, pumpRun := false,
      pumpDelivered := false, parkHoldTimer := none } s
  contributePack p true s

end Sys2Proof.Machine
end

