-- ==== Sys2Proof/Machine/RampHolds.lean ====
section
/-! DEFINITION. Holding and failing a program (R76 to R80): what the ramp unit does when a hold or a fault
reaches a ramp in MOVING. The rest of the ramp unit stands in Ramps.lean. -/

namespace Sys2Proof.Machine

/-- Every timer of the ramp stops (R76, R80, R101). -/
def RampRecord.stopTimers (r : RampRecord) : RampRecord :=
  { r with durationTimer := none, limitTimer := none, pace := r.pace.stopTimers }

/-- Set the valve contribution and hand it to the station table (R36, R72). -/
def contributeValves (r : Fin 4) (valves : BitVec 8) (urgent : Bool) (s : State) : State :=
  contributeRamp r urgent (setRamp r { s.ramps[r] with valves := valves } s)

/-- Give the pack back: a running stage parks its valves URGENT and releases; a ramp awaiting its grant
withdraws (R76, R80). `waiting` tells which. -/
def giveBackPack (r : Fin 4) (waiting : Bool) (s : State) : State :=
  match s.rampEntry r with
  | some e =>
    if waiting then withdraw e.pack (.ramp r) s
    else releasePack e.pack (.ramp r) (contributeValves r 0 true s)
  | none => s

/-- A program stops short of its end: the pack is given back and the card ends with the program stage as
its detail (R76, R80). `after` is the ramp record without its program card. -/
def stopProgram (r : Fin 4) (after : RampRecord) (o : OrderOutcome) (s : State) : State :=
  let before := s.ramps[r]
  let s := setRamp r
    { after.stopTimers with
      stage := 0, awaitingGrant := false, card := none, lastEnd := some o } s
  endCardOf before.card o before.programStage (giveBackPack r before.awaitingGrant s)

/-- A hold (R76): no effect but on a ramp in MOVING. The card ends HELD, or CANCELLED for a cancel (R71). -/
def holdRamp (r : Fin 4) (cause : HoldCause) (s : State) : State :=
  let rec_ := s.ramps[r]
  if rec_.state = .moving then
    stopProgram r { rec_ with state := .held, holdCause := cause }
      (if cause = .cancel then .cancelled else .held) s
  else s

/-- A program fails (R80): no effect but on a ramp in MOVING. -/
def failRamp (r : Fin 4) (cause : RampFaultCause) (s : State) : State :=
  let rec_ := s.ramps[r]
  if rec_.state = .moving then
    stopProgram r { rec_ with state := .fault, faultCause := cause } cause.outcome s
  else s

/-- A zone hold reaches the ramp unit: every ramp of the zone in MOVING is held (R78), in ascending order, the
model's choice (LOG 50). -/
def takeZoneHold (z : Fin 8) (s : State) : State :=
  forEach 4 (fun r s =>
    match s.rampEntry r with
    | some e => if e.zone = z then holdRamp r .zone s else s
    | none => s) s

/-- A gate door has left OPEN: every ramp that names it and lowers is held (R79), in ascending order (LOG 50). -/
def gateLeftOpen (d : Fin 32) (s : State) : State :=
  forEach 4 (fun r s =>
    match s.rampEntry r with
    | some e =>
      if e.gates.contains d && s.ramps[r].program == .lower then holdRamp r .gate s else s
    | none => s) s

end Sys2Proof.Machine
end

