-- ==== Sys2Proof/Machine/Calls.lean ====
section
/-! DEFINITION. The call unit: queue order, merging, the taking of a slot, the start test, preemption,
plays and repeats, and what the notices of CALL stations and of the zone unit do (08_passenger_calls.md). -/

namespace Sys2Proof.Machine

/-! ### Queue order (R151) -/

/-- The higher of two priorities. -/
def Priority.max (a b : Priority) : Priority := if a.rank < b.rank then b else a

/-- BOARDING and ROUTINE calls are barred from sealed zones (R148). -/
def Priority.barred : Priority → Bool
  | .routine | .boarding => true
  | .safety | .emergency => false

/-- The age of a call (R151). -/
def State.callAge (s : State) (i : Fin 16) : Nat :=
  (s.callUnit.nextArrival - s.slots[i].arrival).toNat

/-- Slot i ranks ahead of slot j: priority, then age (R151). Two calls of one priority with one arrival number
rank by slot number, lower first: the model's choice (LOG 44). -/
def State.ranksAhead (s : State) (i j : Fin 16) : Bool :=
  let p := s.slots[i].priority.rank
  let q := s.slots[j].priority.rank
  let a := s.callAge i
  let b := s.callAge j
  decide (q < p) || (p == q && (decide (b < a) || (a == b && decide (i < j))))

/-- The QUEUED calls in queue order. -/
def State.queuedCalls (s : State) : List (Fin 16) :=
  sortBy s.ranksAhead ((List.finRange 16).filter fun i => s.slots[i].state == .queued)

/-- The zones of a set, ascending: the order in which a repeat judges its zones and hands over their PLAYs
(R154), the model's choice (LOG 50). -/
def zonesOf (set : BitVec 8) : List (Fin 8) := (List.finRange 8).filter (hasZone set)

/-- The zone is SEALING, SEALED or IMPAIRED. -/
def ZoneState.isSealed : ZoneState → Bool
  | .sealing | .sealed | .impaired => true
  | .clear | .alert => false

/-- The zones sealed in the call unit's copy, as a set. -/
def State.barredZones (s : State) : BitVec 8 :=
  (List.finRange 8).foldl (fun set z =>
    if s.callUnit.zoneCopy[z].isSealed then set ||| zoneBit z else set) 0

/-- The zones of a set a priority may play in (R148, R152). -/
def State.allowedZones (s : State) (priority : Priority) (zones : BitVec 8) : BitVec 8 :=
  if priority.barred then zones &&& ~~~ s.barredZones else zones

/-- A call's playable zones (R152). -/
def State.playableZones (s : State) (i : Fin 16) : BitVec 8 :=
  s.allowedZones s.slots[i].priority s.slots[i].zones

/-! ### Channels -/

/-- Give a channel a contribution and hand it to the zone's call station (R159). -/
def giveContribution (z : Fin 8) (c : CallContribution) (urgent : Bool) (s : State) : State :=
  contributeChannel z urgent (setChannel z { s.channels[z] with contribution := c } s)

/-- A channel becomes free, with progress IDLE. -/
def freeChannel (z : Fin 8) (s : State) : State :=
  setChannel z { s.channels[z] with holder := none, progress := .idle, playTimer := none } s

/-- STOP, URGENT, on a channel that becomes free (R153, R157, R158). -/
def stopChannel (z : Fin 8) (s : State) : State := freeChannel z (giveContribution z .stop true s)

/-- The channels a call holds, ascending: the order of the STOPs when it is cut or stopped (R153, R158), the
model's choice (LOG 50). -/
def State.channelsOf (s : State) (i : Fin 16) : List (Fin 8) :=
  (List.finRange 8).filter fun z => s.channels[z].holder == some i

/-- A call ends: its channels are free, its slot is FREE, and its card, if it has one, ends (R156). -/
def endCall (i : Fin 16) (o : OrderOutcome) (detail : Nat) (s : State) : State :=
  let card := s.slots[i].card
  let s := forList (s.channelsOf i) freeChannel s
  endCardOf card o detail (setSlot i SlotRecord.start s)

/-- STOP on every channel of a call; its gap timer and play limit timers stop (R153, R158). -/
def stopCall (i : Fin 16) (s : State) : State :=
  let s := forList (s.channelsOf i) stopChannel s
  setSlot i { s.slots[i] with gapTimer := none } s

/-! ### Plays and repeats -/

/-- A zone joins the silent set of a call; the silent count rises (R154, R155). -/
def SlotRecord.silence (r : SlotRecord) (z : Fin 8) : SlotRecord :=
  { r with silent := r.silent ||| zoneBit z, silentCount := r.silentCount + 1 }

/-- A zone's channel at the beginning of a repeat (R154). -/
def beginPlay (i : Fin 16) (z : Fin 8) (s : State) : State :=
  let r := s.slots[i]
  let ch := s.channels[z]
  if hasZone r.silent z then setChannel z { ch with progress := .silent } s
  else
    match (s.zoneEntry z).callStation with
    | some st =>
      if s.lostOrDisabled st then
        setSlot i (r.silence z) (setChannel z { ch with progress := .silent } s)
      else
        let token := ch.token + 1
        let s := setChannel z
          { ch with
            token := token, progress := .sent, playTimer := startTimer s.clock Config.playLimitTime } s
        giveContribution z (.play r.clip r.chime token) (r.priority == .emergency) s
    | none => setSlot i (r.silence z) (setChannel z { ch with progress := .silent } s)

/-- Every zone of the call is DONE or SILENT (R155). -/
def State.repeatOver (s : State) (i : Fin 16) : Bool :=
  (zonesOf s.slots[i].zones).all fun z =>
    s.channels[z].progress == .done || s.channels[z].progress == .silent

/-- A repeat ends: GAP, or the end of the call (R156). -/
def countRepeat (i : Fin 16) (s : State) : State :=
  let r := s.slots[i]
  let done := r.repeatsDone + 1
  if done < r.repeats then
    setSlot i
      { r with state := .gap, repeatsDone := done, gapTimer := startTimer s.clock (1000 * r.gap) } s
  else if r.silentCount = 0 then endCall i .ok 0 s
  else endCall i .partialOk r.silentCount s

/-- A repeat begins (R154); when every zone is SILENT at once it ends, and with a gap of 0 the next one
begins at the same event (R156). A call has at most 8 repeats. -/
def beginRepeat : Nat → Fin 16 → State → State
  | 0, _, s => s
  | n + 1, i, s =>
    let s := setSlot i { s.slots[i] with state := .playing, gapTimer := none } s
    let s := forList (zonesOf s.slots[i].zones) (beginPlay i) s
    if s.repeatOver i then
      let s := countRepeat i s
      if s.slots[i].state = .gap ∧ s.slots[i].gap = 0 then beginRepeat n i s else s
    else s

/-- The repeats a beginning may run through at one event. -/
def repeatFuel : Nat := 9

/-- The repeat of a PLAYING call ends if every zone is DONE or SILENT (R155, R156). -/
def judgeRepeat (i : Fin 16) (s : State) : State :=
  if s.slots[i].state = .playing ∧ s.repeatOver i = true then
    let s := countRepeat i s
    if s.slots[i].state = .gap ∧ s.slots[i].gap = 0 then beginRepeat repeatFuel i s else s
  else s

/-! ### The start test (R152, R153) -/

/-- A call is cut whole: back to QUEUED with resume-on-cut, else ended CUT (R153). -/
def cutCall (j : Fin 16) (s : State) : State :=
  let s := stopCall j s
  if s.slots[j].resumeOnCut then setSlot j { s.slots[j] with state := .queued } s
  else endCall j .cut s.slots[j].repeatsDone s

/-- A call starts: barred zones are dropped, its channels are taken, its repeat begins (R152). -/
def startCall (i : Fin 16) (s : State) : State :=
  let zones := s.playableZones i
  let r := s.slots[i]
  let s := setSlot i { r with zones := zones, silent := r.silent &&& zones } s
  let s := forList (zonesOf zones)
    (fun z s => setChannel z { s.channels[z] with holder := some i } s) s
  beginRepeat repeatFuel i s

/-- An EMERGENCY call cuts the calls that hold channels of its playable zones, then starts (R153). -/
def preemptAndStart (i : Fin 16) (s : State) : State :=
  let s := forList (zonesOf (s.playableZones i)) (fun z s =>
    match s.channels[z].holder with
    | some j => cutCall j s
    | none => s) s
  startCall i s

/-- What the start test finds for a QUEUED call (R152). -/
inductive StartVerdict where
  | barred | start | preempt | wait
deriving DecidableEq, Repr

/-- Judge a QUEUED call; `ahead` is the playable zones of the QUEUED calls ranked above it (R152). -/
def judgeStart (s : State) (ahead : BitVec 8) (i : Fin 16) : StartVerdict :=
  let zones := s.playableZones i
  if zones = 0 then .barred
  else if zones &&& ahead ≠ 0 then .wait
  else if (zonesOf zones).all (fun z => s.channels[z].holder == none) then .start
  else if s.slots[i].priority == .emergency &&
      (zonesOf zones).all (fun z =>
        match s.channels[z].holder with
        | some j => s.slots[j].priority != .emergency
        | none => true) then .preempt
  else .wait

/-- The first QUEUED call in queue order that does not wait. -/
def firstToAct (s : State) : BitVec 8 → List (Fin 16) → Option (Fin 16 × StartVerdict)
  | _, [] => none
  | ahead, i :: rest =>
    match judgeStart s ahead i with
    | .wait => firstToAct s (ahead ||| s.playableZones i) rest
    | v => some (i, v)

/-- Act on a call the start test does not leave waiting. -/
def actOnStart (i : Fin 16) : StartVerdict → State → State
  | .barred, s => endCall i .interlock 2 s
  | .start, s => startCall i s
  | .preempt, s => preemptAndStart i s
  | .wait, s => s

/-- The start test (R152). It runs again after every call it ends, starts or cuts; a start takes a call out
of QUEUED, so it comes to rest. -/
def startTestWithin : Nat → State → State
  | 0, s => s
  | n + 1, s =>
    match firstToAct s 0 s.queuedCalls with
    | none => s
    | some (i, v) => startTestWithin n (actOnStart i v s)

/-- Rounds enough for every call to end, start and be cut by every other. -/
def startFuel : Nat := 512

def startTest (s : State) : State := startTestWithin startFuel s

/-! ### Entry of a call (R149, R150) -/

/-- How the entry of a call came out. -/
inductive EntryResult where
  | merged (slot : Fin 16)
  | taken
  | busy
deriving DecidableEq, Repr

/-- The QUEUED call a new call merges into: equal clip and zones, first in queue order (R149). -/
def mergeTarget (s : State) (c : SlotRecord) : Option (Fin 16) :=
  s.queuedCalls.find? fun i => s.slots[i].clip == c.clip && s.slots[i].zones == c.zones

/-- Merge a call into a QUEUED one: the higher priority, the larger repeats (R149). -/
def mergeCall (i : Fin 16) (c : SlotRecord) (s : State) : State :=
  let r := s.slots[i]
  setSlot i
    { r with priority := r.priority.max c.priority, repeats := max r.repeats c.repeats } s

/-- Fill a slot with a call (R150). -/
def fillSlot (i : Fin 16) (c : SlotRecord) (s : State) : State :=
  let arrival := s.callUnit.nextArrival
  let s := { s with callUnit := { s.callUnit with nextArrival := arrival + 1 } }
  setSlot i
    { c with
      state := .queued, arrival := arrival, repeatsDone := 0, silent := 0, silentCount := 0,
      gapTimer := none } s

/-- The lowest-numbered FREE slot (R150). -/
def State.freeSlot (s : State) : Option (Fin 16) :=
  (List.finRange 16).find? fun i => s.slots[i].state == .free

/-- The call an EMERGENCY call displaces: the newest of the lowest priority below EMERGENCY (R150). -/
def displaceable (s : State) : Option (Fin 16) :=
  (s.queuedCalls.filter fun i => s.slots[i].priority != .emergency).getLast?

/-- The entry of a call after barring: merging, then the taking of a slot (R149, R150). -/
def enterCall (c : SlotRecord) (s : State) : EntryResult × State :=
  match mergeTarget s c with
  | some i => (.merged i, mergeCall i c s)
  | none =>
    match s.freeSlot with
    | some i => (.taken, fillSlot i c s)
    | none =>
      match c.priority, displaceable s with
      | .emergency, some j => (.taken, fillSlot j c (endCall j .cut s.slots[j].repeatsDone s))
      | _, _ => (.busy, s)

/-! ### The zone unit's reports -/

/-- Cut a BOARDING or ROUTINE call in one zone that is being sealed (R157). -/
def cutInZone (z : Fin 8) (s : State) : State :=
  match s.channels[z].holder with
  | none => s
  | some i =>
    if s.slots[i].priority.barred then
      let s := stopChannel z s
      let r := s.slots[i]
      let s := setSlot i
        { r with zones := withoutZone r.zones z, silent := withoutZone r.silent z } s
      if s.slots[i].zones = 0 then endCall i .cut s.slots[i].repeatsDone s else judgeRepeat i s
    else s

/-- The sealing call of a zone (R132, R157). -/
def sealingCall (z : Fin 8) (e : ZoneEntry) : SlotRecord :=
  { SlotRecord.start with
    origin := .zone z, card := none, clip := BitVec.ofNat 8 e.clip, zones := zoneBit z,
    priority := .emergency, repeats := e.repeats, gap := 0, chime := true, resumeOnCut := false }

/-- Set the call unit's copy of a zone's state (R146). -/
def setZoneCopy (z : Fin 8) (st : ZoneState) (s : State) : State :=
  { s with callUnit := { s.callUnit with zoneCopy := s.callUnit.zoneCopy.set z st } }

/-- The call unit takes the notice that a zone has entered SEALING (R157). -/
def takeSealingNotice (z : Fin 8) (s : State) : State :=
  let s := cutInZone z (setZoneCopy z .sealing s)
  let e := s.zoneEntry z
  let s := if e.clip = 0 then s else (enterCall (sealingCall z e) s).2
  startTest s

/-- A sealing notice still in flight is taken before the zone's next report (LOG 8). -/
def settleSealingNotice (z : Fin 8) (s : State) : State :=
  if s.inFlight (.sealingNotice z) then
    takeSealingNotice z (dropHandover (.sealingNotice z) s)
  else s

/-- The call unit is told of another change of a zone's state (R143). -/
def reportZoneState (z : Fin 8) (st : ZoneState) (s : State) : State :=
  startTest (setZoneCopy z st (settleSealingNotice z s))

/-! ### Notices of CALL stations (R155) -/

/-- The slot of a PLAYING call that holds a channel whose progress is SENT or PLAYING. -/
def State.activeCall (s : State) (z : Fin 8) : Option (Fin 16) :=
  match s.channels[z].holder with
  | some i =>
    if s.slots[i].state = .playing ∧ (s.channels[z].progress = .sent ∨ s.channels[z].progress = .playing)
    then some i else none
  | none => none

/-- A zone of a PLAYING call falls silent; the play limit timer stops and the contribution changes (R155). -/
def silenceChannel (z : Fin 8) (c : CallContribution) (urgent : Bool) (s : State) : State :=
  match s.activeCall z with
  | some i =>
    let s := setSlot i (s.slots[i].silence z) s
    let s := setChannel z { s.channels[z] with progress := .silent, playTimer := none } s
    startTest (judgeRepeat i (giveContribution z c urgent s))
  | none => s

/-- A delivery notice: a PLAY with the channel's token, in progress SENT (R155). -/
def callDelivery (i : Fin 48) (image : BitVec 32) (s : State) : State :=
  forList (s.zonesCalling i) (fun z s =>
    let ch := s.channels[z]
    match s.activeCall z with
    | some _ =>
      if ch.progress = .sent ∧ imageByte image 0 = 1 ∧ imageByte image 3 = ch.token then
        setChannel z { ch with progress := .playing, reference := s.stations[i].lastCount } s
      else s
    | none => s) s

/-- A done count that differs from the reference count ends the play in the zone (R155). -/
def callCount (i : Fin 48) (count : Byte) (s : State) : State :=
  forList (s.zonesCalling i) (fun z s =>
    let ch := s.channels[z]
    match s.activeCall z with
    | some slot =>
      if ch.progress = .playing ∧ count ≠ ch.reference then
        let s := setChannel z { ch with progress := .done, playTimer := none } s
        startTest (judgeRepeat slot (giveContribution z .none false s))
      else s
    | none => s) s

/-- A loss notice: the zone falls silent, contribution NONE, ordinary (R155). -/
def callLoss (i : Fin 48) (s : State) : State :=
  forList (s.zonesCalling i) (fun z s => silenceChannel z .none false s) s

/-- A channel whose call station a zone table has changed falls silent (R160). `before` holds the old
tables. -/
def silenceChanged (before : Tables) (z : Fin 8) (s : State) : State :=
  if before.zones[z].callStation ≠ (s.zoneEntry z).callStation then
    match s.activeCall z with
    | some i =>
      setChannel z { s.channels[z] with progress := .silent, playTimer := none }
        (setSlot i (s.slots[i].silence z) s)
    | none => s
  else s

/-- Adoption of a zone table: the channels that are SENT or PLAYING at it and whose call station has changed
fall silent, and then the end of each call's repeat is judged (R155, R160): the slots ascending, with one start
test after all of them, the model's choice (LOG 50). -/
def callAdoptZones (before : Tables) (s : State) : State :=
  startTest (forEach 16 judgeRepeat (forEach 8 (silenceChanged before) s))

/-- The call unit's start values at entry to RUNNING and at the restart command: tokens are kept (R146). -/
def resetCalls (s : State) : State :=
  let s := noteChanged ((List.finRange 16).map .slot) s
    { s with slots := Vector.replicate 16 SlotRecord.start, callUnit := CallUnit.start }
  forEach 8 (fun z s => setChannel z { ChannelRecord.start with token := s.channels[z].token } s) s

end Sys2Proof.Machine
end

