-- ==== Sys2Proof/Machine/Zones.lean ====
section
/-! DEFINITION. The zone unit's records: door counts, the seal judgement, starts and their stagger, the
alarm, and entry to SEALING (7.3 to 7.5). Sensor notices, zone orders and the placing of demands, which
call on the door unit, stand in ZoneOrders.lean. -/

namespace Sys2Proof.Machine

/-! ### Doors of a zone -/

/-- The doors of a zone, ascending (7.1). -/
def State.doorsOfZone (s : State) (z : Fin 8) : List (Fin 32) :=
  (List.finRange 32).filter fun d =>
    match s.doorEntry d with
    | some e => e.zone == z
    | none => false

/-- The doors of a zone in rank order: those the close-order list names, then the others (R135). -/
def State.rankOrder (s : State) (z : Fin 8) : List (Fin 32) :=
  let own := s.doorsOfZone z
  let listed := (s.zoneEntry z).closeOrder.filter own.contains
  listed ++ own.filter fun d => !listed.contains d

/-- The door states of a zone taken afresh from the door records (R128, R132, R134). -/
def State.freshDoorStates (s : State) (z : Fin 8) : List (Fin 32 × DoorState) :=
  (s.doorsOfZone z).map fun d => (d, s.doors[d].state)

/-! ### The seal judgement -/

/-- What the seal judgement answers: the next state, if it changes (R133). -/
def ZoneRecord.sealJudgement (r : ZoneRecord) : Option ZoneState :=
  let allClosed := r.closedCount == r.doorCount
  if r.placementPending then
    if r.state = .sealed ∧ !allClosed then some .impaired else none
  else
    match r.state with
    | .sealing =>
      if allClosed then some .sealed else if r.busyCount = 0 then some .impaired else none
    | .impaired => if allClosed then some .sealed else none
    | .sealed => if allClosed then none else some .impaired
    | .clear | .alert => none

/-- Entry to SEALED or IMPAIRED: the zone's card ends, and the call unit is told (R133, R140, R143). -/
def concludeSeal (z : Fin 8) (st : ZoneState) (s : State) : State :=
  let r := s.zones[z]
  let s := setZone z { r with state := st, card := none } s
  let s :=
    if st = .sealed then endCardOf r.card .ok 0 s
    else endCardOf r.card .partialOk (r.doorCount - r.closedCount) s
  reportZoneState z st s

/-- The seal judgement of a zone (R133). -/
def judgeSeal (z : Fin 8) (s : State) : State :=
  match s.zones[z].sealJudgement with
  | some st => concludeSeal z st s
  | none => s

/-! ### The door unit's reports (R134) -/

/-- Record a door's state in a zone record; a door that leaves WARNING leaves the start requests. -/
def ZoneRecord.recordDoor (r : ZoneRecord) (d : Fin 32) (st : DoorState) : ZoneRecord :=
  { r with
    doorStates := r.doorStates.map fun x => if x.1 = d then (d, st) else x
    startRequests := if st = .warning then r.startRequests else r.startRequests.filter (· != d) }

/-- A change of a door's state is reported and taken with the change itself. The zone unit takes no report
while the part is not RUNNING (R127). -/
def reportDoorState (d : Fin 32) (s : State) : State :=
  match s.doorEntry d with
  | some e =>
    if s.part = .running then
      judgeSeal e.zone (setZone e.zone (s.zones[e.zone].recordDoor d s.doors[d].state) s)
    else s
  | none => s

/-- The end of a ZONE close is reported. -/
def reportDoorEnd (d : Fin 32) (o : OrderOutcome) (s : State) : State :=
  match s.doorEntry d with
  | some e =>
    if s.part = .running then
      setZone e.zone { s.zones[e.zone] with lastDoorEnd := some (d, o) } s
    else s
  | none => s

/-- The clearing of the door unit's demands is reported (R103): every zone takes its door states afresh,
and a sealed zone places its demands again. -/
def takeDemandsCleared (s : State) : State :=
  if s.part = .running then
    forEach 8 (fun z s =>
      let r := { s.zones[z] with doorStates := s.freshDoorStates z }
      if r.state.isSealed then
        judgeSeal z (handOver (.zoneDemand z)
          (setZone z
            { r with startRequests := [], staggerTimer := none, placementPending := true } s))
      else setZone z r s) s
  else s

/-! ### Starts and stagger (R135 to R137) -/

/-- Give the first requesting door its start and start the stagger; with a stagger of 0 the timer expires
at once (R136). At most 32 doors wait. -/
def giveStarts : Nat → Fin 8 → State → State
  | 0, _, s => s
  | n + 1, z, s =>
    let r := s.zones[z]
    match r.staggerTimer, r.startRequests with
    | none, d :: rest =>
      giveStarts n z (handOver (.doorStart d)
        (setZone z
          { r with
            startRequests := rest,
            staggerTimer := timerUnlessZero s.clock (1000 * (s.zoneEntry z).stagger) } s))
    | _, _ => s

/-- Doors that may be given their starts at one event. -/
def startsFuel : Nat := 33

/-- A door asks for its start: it joins the requests in rank order (R135). It is given its start when every
door that asks at the same event has joined them (R136). The request is none of the reports of R134, so it is
taken in every part state (LOG 20). -/
def askStart (d : Fin 32) (s : State) : State :=
  match s.doorEntry d with
  | some e =>
    let r := s.zones[e.zone]
    let requests := (s.rankOrder e.zone).filter fun x => x == d || r.startRequests.contains x
    setZone e.zone { r with startRequests := requests } s
  | none => s

/-- Every zone whose stagger timer is stopped gives its starts (R136). -/
def giveAllStarts (s : State) : State := forEach 8 (giveStarts startsFuel) s

/-- The stagger timer expires: the next start is given (R136). -/
def staggerOver (z : Fin 8) (s : State) : State :=
  giveStarts startsFuel z (setZone z { s.zones[z] with staggerTimer := none } s)

/-! ### Entry to SEALING and the alert (R130 to R132) -/

/-- A zone enters SEALING: three hand-overs, to the ramp unit, the door unit and the call unit (R132). -/
def enterSealing (z : Fin 8) (cause : SealCause) (card : Option CardId) (s : State) : State :=
  let s := setZone z
    { s.zones[z] with
      state := .sealing, sealCause := cause, card := card, alertTimer := none, startRequests := [],
      staggerTimer := none, placementPending := true } s
  handOver (.sealingNotice z) (handOver (.zoneDemand z) (handOver (.zoneHold z) s))

/-- The alert timer of a zone in ALERT has expired (R131), in UNCONFIGURED as in RUNNING (LOG 43). -/
def alertOver (z : Fin 8) (s : State) : State :=
  let r := s.zones[z]
  let s := setZone z { r with alertTimer := none } s
  if r.state = .alert ∧ (s.zoneEntry z).autoSeal = true ∧ r.alarm = true then
    enterSealing z .auto none s
  else s

/-- The alert timer starts with the alert confirm time; at 0 it expires at the same event (R131). -/
def startAlertTimer (z : Fin 8) (s : State) : State :=
  let time := 1000 * (s.zoneEntry z).confirmTime
  if time = 0 then alertOver z s
  else setZone z { s.zones[z] with alertTimer := startTimer s.clock time } s

/-- A CLEAR zone enters ALERT, and the call unit is told (R130, R138, R143). -/
def enterAlert (z : Fin 8) (s : State) : State :=
  startAlertTimer z (reportZoneState z .alert (setZone z { s.zones[z] with state := .alert } s))

/-- Some named point is active or lost (R130). -/
def ZoneRecord.alarmNow (r : ZoneRecord) : Bool := r.points.any fun p => p.active || p.lost

/-- The alarm of a zone is judged (R130). -/
def judgeAlarm (z : Fin 8) (s : State) : State :=
  let r := s.zones[z]
  let s := setZone z { r with alarm := r.alarmNow } s
  if r.alarmNow && !r.alarm then
    match r.state with
    | .clear => enterAlert z s
    | .alert => if r.alertTimer = none then startAlertTimer z s else s
    | .sealing | .sealed | .impaired => s
  else s

end Sys2Proof.Machine
end

