-- ==== Sys2Proof/Machine/Doors.lean ====
section
/-! DEFINITION. The door unit: outputs, the close and open operations, the door queues, the packs,
obstruction, zone demands, and the loss and return of stations (06_doors.md). -/

namespace Sys2Proof.Machine

/-! ### Kinds, switches and outputs -/

/-- The pack of a hydraulic door. -/
def DoorKind.pack? : DoorKind → Option (Fin 2)
  | .springFire => none
  | .hydraulicFire p => some p
  | .gate p _ => some p

/-- HYDRAULIC FIRE or GATE. -/
def DoorKind.isHydraulic (k : DoorKind) : Bool := k.pack?.isSome

/-- The ramp of a GATE door. -/
def DoorKind.ramp? : DoorKind → Option (Fin 4)
  | .gate _ r => some r
  | _ => none

/-- The state given by the switches (R105). -/
def DoorRecord.switchState (r : DoorRecord) : DoorState :=
  if r.closedSwitch && !r.openSwitch then .closed
  else if r.openSwitch && !r.closedSwitch then .opened
  else .ajar

/-- OPEN, CLOSED or AJAR. -/
def DoorState.isResting : DoorState → Bool
  | .opened | .ajar | .closed => true
  | _ => false

/-- WARNING, WAITING, CLOSING, OPENING or OBSTRUCTED. -/
def DoorState.isMovingState : DoorState → Bool
  | .warning | .waiting | .closing | .opening | .obstructed => true
  | _ => false

/-- A CLOSE demand of origin ZONE stands. -/
def DoorRecord.zoneClose (r : DoorRecord) : Bool := r.demand == .close && r.origin == .zone

/-- In WARNING, WAITING in a close, CLOSING or OBSTRUCTED. -/
def DoorRecord.inClose (r : DoorRecord) : Bool :=
  match r.state with
  | .warning | .closing | .obstructed => true
  | .waiting => r.demand == .close
  | _ => false

/-- In WAITING in an open or OPENING. -/
def DoorRecord.inOpen (r : DoorRecord) : Bool :=
  match r.state with
  | .opening => true
  | .waiting => r.demand != .close
  | _ => false

/-- The contribution for a door's point, from its kind, state and demand (R104). -/
def doorOutputs (k : DoorKind) (r : DoorRecord) : DoorOutputs :=
  let drives := k.isHydraulic
  let magnet := !k.isHydraulic
  match r.state with
  | .opened | .ajar => ⟨false, false, false, magnet⟩
  | .closed | .failed => DoorOutputs.off
  | .warning => ⟨false, false, true, magnet⟩
  | .waiting => ⟨false, false, r.demand == .close, false⟩
  | .closing => ⟨drives, false, true, false⟩
  | .opening => ⟨false, drives, false, magnet⟩
  | .obstructed => ⟨false, false, true, false⟩
  | .unknown => ⟨false, false, false, magnet && !r.zoneClose⟩

/-- The change turns the close drive on or the magnet off (R104). -/
def outputsUrgent (before after : DoorOutputs) : Bool :=
  (after.closeDrive && !before.closeDrive) || (before.magnet && !after.magnet)

/-- Every timer of the door stops. -/
def DoorRecord.stopTimers (r : DoorRecord) : DoorRecord :=
  { r with warningTimer := none, motionTimer := none, retryTimer := none, packWaitTimer := none }

/-- Marks and timers that a door has only in some states: warned in WARNING (LOG 14), front and the pack
wait in WAITING (R109, R112). -/
def DoorRecord.trim (r : DoorRecord) : DoorRecord :=
  { r with
    warned := r.warned && r.state == .warning
    front := r.front && r.state == .waiting
    packWaitTimer := if r.state = .waiting then r.packWaitTimer else none }

/-- Change a fitted door's record: its outputs follow (R104), the ramp unit is told when a gate door leaves
OPEN (R79, R125) and the zone unit of a change of state (R125). A door that is not fitted stays as it is
(R102). -/
def setDoor (d : Fin 32) (r : DoorRecord) (s : State) : State :=
  match s.doorEntry d with
  | none => s
  | some e =>
    let before := s.doors[d]
    let r := r.trim
    let r := { r with outputs := doorOutputs e.kind r }
    let s := contributeDoor d (outputsUrgent before.outputs r.outputs) (putDoor d r s)
    if r.state = before.state then s
    else
      let s := if before.state = .opened ∧ e.kind.ramp?.isSome then gateLeftOpen d s else s
      reportDoorState d s

/-! ### Door queues and packs (R109 to R111) -/

/-- The hydraulic doors of a pack, ascending. -/
def State.doorsOfPack (s : State) (p : Fin 2) : List (Fin 32) :=
  (List.finRange 32).filter fun d =>
    match s.doorEntry d with
    | some e => e.kind.pack? == some p
    | none => false

/-- The age of a HOST or WATCH demand (R109). -/
def State.doorAge (s : State) (d : Fin 32) : Nat :=
  (s.doorUnit.nextArrival - s.doors[d].arrival).toNat

/-- The key a queued door takes its place by, smallest first: front, then ZONE by zone and rank, then HOST
and WATCH by age (R109). Two of them of one age, with arrivals 65,536 demands apart, have one key. -/
def State.doorKey (s : State) (d : Fin 32) : Nat :=
  let r := s.doors[d]
  let front := if r.front then 0 else 2000000
  match s.doorEntry d with
  | some e =>
    if r.origin = .zone then front + 100 * e.zone.val + (s.rankOrder e.zone).idxOf d
    else front + 1000000 + (65535 - s.doorAge d)
  | none => front

/-- A pack's door queue, in order (R109). Of two HOST or WATCH doors of one age the lower number is first, the
model's choice (LOG 51). -/
def State.doorQueue (s : State) (p : Fin 2) : List (Fin 32) :=
  sortBy (fun a b => decide (s.doorKey a < s.doorKey b))
    ((s.doorsOfPack p).filter fun d => s.doors[d].state == .waiting)

/-- The first queued door allowed to start: its beam is confirmed 0 (R109). -/
def State.nextToStart (s : State) (p : Fin 2) : Option (Fin 32) :=
  (s.doorQueue p).find? fun d => !s.doors[d].beam

/-- How many doors of a pack move (R111). -/
def State.doorsMoving (s : State) (p : Fin 2) : Nat :=
  (s.doorsOfPack p).countP fun d => s.doors[d].state == .closing || s.doors[d].state == .opening

/-- The class of the door unit's request (R110). -/
def State.doorClass (s : State) (p : Fin 2) : RequestClass :=
  if (s.doorQueue p).any (fun d => s.doors[d].origin == .zone) then .seal else .motion

def State.relation (s : State) (p : Fin 2) : PackRelation := s.doorUnit.relation[p]

/-- A queued door enters CLOSING or OPENING (R111). -/
def startMove (d : Fin 32) (s : State) : State :=
  match s.doorEntry d with
  | some e =>
    let r := s.doors[d]
    if r.demand = .close then
      setDoor d
        { r.stopTimers with
          state := .closing, motionTimer := startTimer s.clock (1000 * e.closeLimit) } s
    else
      setDoor d
        { r.stopTimers with
          state := .opening, motionTimer := startTimer s.clock (1000 * e.openLimit) } s
  | none => s

/-- While HOLDING, queued doors start in queue order up to the door capacity (R111). -/
def startQueued : Nat → Fin 2 → State → State
  | 0, _, s => s
  | n + 1, p, s =>
    match s.nextToStart p with
    | some d =>
      if s.doorsMoving p < (s.packEntry p).capacity then startQueued n p (startMove d s) else s
    | none => s

/-- A pack has at most 32 doors. -/
def queueFuel : Nat := 32

/-- The class the arbiter holds for the door unit differs from the one its queue now has (R110). -/
def State.classChanged (s : State) (p : Fin 2) : Bool :=
  match s.packs[p].entry? .doorUnit with
  | some e => e.cls != s.doorClass p
  | none => false

/-- The door unit acts toward a pack (R110, R111). -/
def actOnPack (p : Fin 2) (s : State) : State :=
  match s.relation p with
  | .idle =>
    if (s.nextToStart p).isSome then
      requestPack p .doorUnit (s.doorClass p) (setRelation p .requesting s)
    else s
  | .requesting =>
    if (s.nextToStart p).isNone then withdraw p .doorUnit (setRelation p .idle s)
    else if s.classChanged p then requestPack p .doorUnit (s.doorClass p) s
    else s
  | .holding =>
    let s := startQueued queueFuel p s
    if s.doorsMoving p = 0 ∧ (s.nextToStart p).isNone then
      releasePack p .doorUnit (setRelation p .idle s)
    else s

/-- The door unit acts toward both packs. -/
def actOnPacks (s : State) : State := actOnPack 1 (actOnPack 0 s)

/-- The end of an event that has changed doors: the doors that have asked for their starts are given them in
close order (R136), and the door unit acts toward the packs. -/
def endDoorEvent (s : State) : State := actOnPacks (giveAllStarts s)

/-- Every queued door's pack wait timer stops at the grant (R112). -/
def stopPackWaits (p : Fin 2) (s : State) : State :=
  forList (s.doorQueue p) (fun d s => setDoor d { s.doors[d] with packWaitTimer := none } s) s

/-- A grant notice reaches the door unit (R110): whatever its relation to the pack, the pack wait timers of the
queued doors stop (R112). -/
def takeDoorGrant (p : Fin 2) (s : State) : State :=
  let s := stopPackWaits p s
  match s.relation p with
  | .requesting => actOnPack p (setRelation p .holding s)
  | .idle => releasePack p .doorUnit s
  | .holding => s

/-- The door's pack is FAILED (R112). -/
def packFailedFor (e : DoorEntry) (s : State) : Bool :=
  match e.kind.pack? with
  | some p => s.packs[p].state == .failed
  | none => false

/-- A door enters WAITING; while its pack is FAILED its pack wait timer starts (R107, R112). -/
def enterWaiting (d : Fin 32) (r : DoorRecord) (s : State) : State :=
  match s.doorEntry d with
  | some e =>
    setDoor d
      { r.stopTimers with
        state := .waiting
        packWaitTimer :=
          if packFailedFor e s then startTimer s.clock Config.packWaitTime else none } s
  | none => s

/-- The pack arbiter's failure notice (R112). -/
def doorsPackFailed (p : Fin 2) (s : State) : State :=
  let s :=
    if s.relation p = .holding then
      forList (s.doorsOfPack p) (fun d s =>
        let r := s.doors[d]
        if r.state = .closing ∨ r.state = .opening then enterWaiting d { r with front := true } s
        else s) (setRelation p .idle s)
    else s
  let s := forList (s.doorQueue p) (fun d s =>
    let r := s.doors[d]
    if r.packWaitTimer = none then
      setDoor d { r with packWaitTimer := startTimer s.clock Config.packWaitTime } s
    else s) s
  actOnPack p s

/-! ### Ends of operations (R108, R115) -/

/-- A close or open ends; `r` is the record as it stands after the end, but for its timers and demand. A
ZONE demand stands unless finishing is yes, and the zone unit is told; another demand becomes NONE and its
card ends (R108, R115). -/
def endOperation (d : Fin 32) (r : DoorRecord) (o : OrderOutcome) (detail : Nat) (s : State) : State :=
  let r := { r.stopTimers with lastOutcome := some o }
  let dropped := { r with demand := .none, origin := .none, card := none, finishing := false }
  if r.origin = .zone then
    reportDoorEnd d o (setDoor d (if r.finishing then dropped else r) s)
  else endCardOf r.card o detail (setDoor d dropped s)

/-! ### The close operation (R106, R107, R113) -/

/-- A GATE door whose ramp is not STOWED, as the door unit knows it (R119). -/
def State.gateMustWait (s : State) (d : Fin 32) : Bool :=
  match s.doorEntry d with
  | some e =>
    match e.kind.ramp? with
    | some r => !s.doorUnit.rampStowed[r]
    | none => false
  | none => false

/-- The start of a close: CLOSING for a spring door, the pack's queue for a hydraulic one (R107). -/
def makeStart (d : Fin 32) (s : State) : State :=
  match s.doorEntry d with
  | some e =>
    let r := s.doors[d]
    if e.kind.isHydraulic then enterWaiting d r s
    else
      setDoor d
        { r.stopTimers with
          state := .closing, motionTimer := startTimer s.clock (1000 * e.closeLimit) } s
  | none => s

/-- A door's warning has run (R106). -/
def warningRun (d : Fin 32) (s : State) : State :=
  let r := s.doors[d]
  if r.state = .warning then
    if r.origin = .zone then
      askStart d (setDoor d { r with warned := true, warningTimer := none } s)
    else makeStart d s
  else s

/-- A close operation begins (R106). `r` carries its demand; a warn time of 0 has run at once. A closed switch
that is confirmed already ends the close only at the next notice that names the point (LOG 40). -/
def beginClose (d : Fin 32) (r : DoorRecord) (s : State) : State :=
  match s.doorEntry d with
  | some e =>
    let s := setDoor d
      { r.stopTimers with
        state := .warning, warned := false, retriesUsed := 0, finishing := false,
        warningTimer := timerUnlessZero s.clock (1000 * e.warnTime) } s
    if e.warnTime = 0 then warningRun d s else s
  | none => s

/-- A door under a zone demand must close from where it rests: it begins a close, or is deferred (R105,
R119, R121, R124). -/
def closeOrDefer (d : Fin 32) (r : DoorRecord) (s : State) : State :=
  if s.gateMustWait d then setDoor d { r with deferred := true } s else beginClose d r s

/-- A door comes to rest in a state; under a zone demand and not CLOSED it closes (R105, R121, R124). -/
def restOrReclose (d : Fin 32) (r : DoorRecord) (s : State) : State :=
  if r.zoneClose && r.state != .closed then closeOrDefer d r s else setDoor d r s

/-- A start given by the zone unit reaches the door unit (R106, R107). -/
def takeStart (d : Fin 32) (s : State) : State :=
  let r := s.doors[d]
  if r.state = .warning ∧ r.warned = true then endDoorEvent (makeStart d s) else s

/-- The beam is confirmed 1 in CLOSING (R113). A finishing door ends there. -/
def obstruct (d : Fin 32) (r : DoorRecord) (s : State) : State :=
  match s.doorEntry d with
  | some e =>
    if r.finishing then endOperation d { r with state := r.switchState } .obstructed 0 s
    else
      setDoor d
        { r.stopTimers with
          state := .obstructed, retryTimer := startTimer s.clock (1000 * e.retryDelay) } s
  | none => s

/-- The retry is judged: delay over and beam clear (R113). -/
def judgeRetry (d : Fin 32) (s : State) : State :=
  match s.doorEntry d with
  | some e =>
    let r := s.doors[d]
    if r.state = .obstructed ∧ r.retryTimer = none ∧ r.beam = false then
      let used := r.retriesUsed + 1
      if e.retryLimit < used then
        endOperation d { r with state := .failed, retriesUsed := used } .obstructed used s
      else enterWaiting d { r with retriesUsed := used } s
    else s
  | none => s

/-! ### Notices of DOOR stations -/

/-- The point's inputs in a confirmed image (R6). -/
def DoorRecord.withInputs (r : DoorRecord) (e : DoorEntry) (image : Word) : DoorRecord :=
  { r with
    closedSwitch := bitOf image (4 * e.point.val)
    openSwitch := bitOf image (4 * e.point.val + 1)
    beam := bitOf image (4 * e.point.val + 2) }

/-- A close that finds its door shut, and an open that finds it open (R108, R115). -/
def DoorRecord.arrived (r : DoorRecord) : Bool :=
  (r.inClose && r.switchState == .closed) || (r.inOpen && r.switchState == .opened)

/-- A door acts on its newly confirmed inputs (R105, R108, R113, R115). `r` holds them. A close that ends OK in
WARNING, WAITING or OBSTRUCTED has retries used as its detail, as one that ends in CLOSING (LOG 39). Inputs
that confirm a door in CLOSING closed with its beam at 1 end the close (LOG 41). -/
def doorInputsTaken (d : Fin 32) (r : DoorRecord) (s : State) : State :=
  match s.doorEntry d with
  | some e =>
    if r.state.isResting then
      if r.state = .closed then restOrReclose d { r with state := r.switchState } s
      else setDoor d { r with state := r.switchState } s
    else if r.arrived then
      endOperation d { r with state := r.switchState } .ok (if r.inClose then r.retriesUsed else 0) s
    else if r.state = .closing ∧ e.kind.isHydraulic = true ∧ r.beam = true then obstruct d r s
    else judgeRetry d (setDoor d r s)
  | none => s

/-- A change notice that names an input of the door's point (R105, R108). -/
def doorChange (d : Fin 32) (image changed : Word) (s : State) : State :=
  match s.doorEntry d with
  | some e =>
    if (changed >>> (4 * e.point.val)) &&& 0x7 = 0 then s
    else doorInputsTaken d (s.doors[d].withInputs e image) s
  | none => s

/-- A first-report notice at a door (R124). -/
def doorFirst (d : Fin 32) (image : Word) (s : State) : State :=
  match s.doorEntry d with
  | some e =>
    let r := s.doors[d].withInputs e image
    if r.state = .unknown then restOrReclose d { r with state := r.switchState } s
    else doorInputsTaken d r s
  | none => s

/-- A change notice of a DOOR station. -/
def doorsChange (i : Fin 48) (image changed : Word) (s : State) : State :=
  endDoorEvent (forList (s.doorsOn i) (fun d => doorChange d image changed) s)

/-- A first-report notice of a DOOR station (R124). -/
def doorsFirst (i : Fin 48) (image : Word) (s : State) : State :=
  endDoorEvent (forList (s.doorsOn i) (fun d => doorFirst d image) s)

/-- A loss notice at a door (R123). -/
def doorLoss (i : Fin 48) (d : Fin 32) (s : State) : State :=
  let r := { s.doors[d] with state := .unknown }
  if r.demand = .none ∨ (r.zoneClose = true ∧ r.finishing = false) then setDoor d r.stopTimers s
  else endOperation d r .stationLost (deckNumber i) s

/-- A loss notice of a DOOR station (R123). -/
def doorsLoss (i : Fin 48) (s : State) : State :=
  endDoorEvent (forList (s.doorsOn i) (doorLoss i) s)

/-! ### Ramps, zones and the deck stop -/

/-- The GATE doors of a ramp, ascending. -/
def State.gatesOf (s : State) (r : Fin 4) : List (Fin 32) :=
  (List.finRange 32).filter fun d =>
    match s.doorEntry d with
    | some e => e.kind.ramp? == some r
    | none => false

/-- Record whether a ramp is STOWED (R119). -/
def setRampStowed (r : Fin 4) (stowed : Bool) (s : State) : State :=
  { s with doorUnit := { s.doorUnit with rampStowed := s.doorUnit.rampStowed.set r stowed } }

/-- A deferred gate door whose ramp has entered STOWED: the mark falls and a close operation begins, from
CLOSED as from OPEN and AJAR (R119). A door that is UNKNOWN stays so until its station returns (R123, R124;
LOG 17). -/
def endDeferral (d : Fin 32) (s : State) : State :=
  let r := s.doors[d]
  if r.deferred && r.zoneClose then
    let r := { r with deferred := false }
    if r.state = .unknown then setDoor d r s else beginClose d r s
  else s

/-- A gate door in a close whose ramp has left STOWED stops (R119). -/
def stopGateClose (d : Fin 32) (s : State) : State :=
  let r := s.doors[d]
  if r.inClose then
    let after := { r with state := r.switchState }
    if r.zoneClose && !r.finishing then setDoor d { after.stopTimers with deferred := true } s
    else endOperation d after .stopped 2 s
  else s

/-- The ramp unit reports that a ramp has entered or left STOWED (R64, R119). -/
def takeRampStowed (r : Fin 4) (stowed : Bool) (s : State) : State :=
  if s.doorUnit.rampStowed[r] = stowed then s
  else
    let s := setRampStowed r stowed s
    endDoorEvent (forList (s.gatesOf r) (if stowed then endDeferral else stopGateClose) s)

/-- The card of a HOST or WATCH demand ends CUT with the zone number (R118). -/
def cutDoorCard (d : Fin 32) (z : Fin 8) (s : State) : State :=
  match s.doors[d].card with
  | some c => endCard c .cut (deckNumber z) (putDoor d { s.doors[d] with card := none } s)
  | none => s

/-- A zone demand reaches a door (R118). A door that stops ends its operation with its card's outcome, CUT
(LOG 15); a close that is taken over goes on where it stands and has ended with none. -/
def takeDemand (z : Fin 8) (d : Fin 32) (s : State) : State :=
  if s.doors[d].zoneClose then setDoor d { s.doors[d] with finishing := false } s
  else
    let s := cutDoorCard d z s
    let r := s.doors[d]
    let demanded := { r with demand := .close, origin := .zone }
    let cut := { demanded with lastOutcome := some .cut }
    match r.state with
    | .closed | .failed | .unknown => setDoor d demanded s
    | .opened | .ajar => closeOrDefer d demanded s
    | _ =>
      if s.gateMustWait d then
        setDoor d { cut.stopTimers with state := r.switchState, deferred := true } s
      else if r.inClose then setDoor d demanded s
      else beginClose d cut s

/-- A zone demand withdrawal reaches a door (R120). -/
def takeDemandWithdrawal (d : Fin 32) (s : State) : State :=
  let r := s.doors[d]
  let dropped := { r with demand := .none, origin := .none }
  if r.zoneClose then
    match r.state with
    | .warning | .waiting | .obstructed =>
      reportDoorEnd d .cancelled
        (setDoor d
          { dropped.stopTimers with state := r.switchState, lastOutcome := some .cancelled } s)
    | .closing => setDoor d { r with finishing := true } s
    | _ => setDoor d { dropped with deferred := false } s
  else s

/-- The deck stop is asserted: every door whose demand is OPEN stops (R122). -/
def doorsDeckStop (s : State) : State :=
  endDoorEvent (forEach 32 (fun d s =>
    let r := s.doors[d]
    if r.demand = .openDoor then endOperation d { r with state := r.switchState } .stopped 1 s
    else s) s)

/-- A CANCEL of the door's card (R117). -/
def cancelDoor (d : Fin 32) (s : State) : State :=
  let r := s.doors[d]
  endDoorEvent (endOperation d { r with state := r.switchState } .cancelled 0 s)

/-! ### Timers -/

/-- The doors whose warnings run out with that of a door: under its zone's demand too, with equal warnings begun
at one instant, so that their starts follow the close order exactly (R136; LOG 47). -/
def State.warnedTogether (s : State) (d : Fin 32) : List (Fin 32) :=
  match s.doorEntry d with
  | some e =>
    if s.doors[d].zoneClose then
      (s.doorsOfZone e.zone).filter fun x => s.doors[x].state == .warning && s.doors[x].zoneClose &&
        s.doors[x].warningTimer == s.doors[d].warningTimer && x != d
    else []
  | none => []

/-- The warning timer expires (R106). -/
def warningOver (d : Fin 32) (s : State) : State :=
  endDoorEvent (forList (d :: s.warnedTogether d)
    (fun x s => warningRun x (setDoor x { s.doors[x] with warningTimer := none } s)) s)

/-- The motion timer expires (R108, R115). -/
def motionOver (d : Fin 32) (s : State) : State :=
  let r := s.doors[d]
  let s := match r.state with
    | .closing => endOperation d { r with state := .failed } .timedOut 0 s
    | .opening => endOperation d { r with state := r.switchState } .timedOut 0 s
    | _ => setDoor d { r with motionTimer := none } s
  endDoorEvent s

/-- The retry timer expires (R113). -/
def retryOver (d : Fin 32) (s : State) : State :=
  endDoorEvent (judgeRetry d (setDoor d { s.doors[d] with retryTimer := none } s))

/-- The pack wait timer expires: FAILED, PACK FAILED with the pack number (R112). -/
def packWaitOver (d : Fin 32) (s : State) : State :=
  match s.doorEntry d with
  | some e =>
    match e.kind.pack? with
    | some p =>
      endDoorEvent
        (endOperation d { s.doors[d] with state := .failed } .packFailed (deckNumber p) s)
    | none => s
  | none => s

/-! ### Door orders -/

/-- The checks of DOOR OPEN in order: the outcome and detail that end the card at taking, or `none` when
the order is accepted (R114). -/
def judgeDoorOpen (d : Fin 32) (s : State) : Option (OrderOutcome × Nat) :=
  let r := s.doors[d]
  match s.doorEntry d with
  | none => some (.badTarget, 0)
  | some e =>
    if r.state = .unknown ∨ r.state = .failed then some (.wrongState, 0)
    else if s.zones[e.zone].state.isSealed then some (.interlock, 2)
    else if r.origin = .zone then some (.interlock, 3)
    else if s.pins.stopLevel then some (.interlock, 1)
    else if r.state = .opened then some (.ok, 0)
    else if r.demand = .openDoor then some (.busy, 0)
    else none

/-- The checks of DOOR CLOSE in order (R116). -/
def judgeDoorClose (d : Fin 32) (s : State) : Option (OrderOutcome × Nat) :=
  let r := s.doors[d]
  match s.doorEntry d with
  | none => some (.badTarget, 0)
  | some e =>
    if r.state = .unknown ∨ r.state = .failed then some (.wrongState, 0)
    else if r.state = .closed then some (.ok, 0)
    else if r.origin = .zone then some (.busy, deckNumber e.zone)
    else if r.demand = .close then some (.busy, 0)
    else
      match e.kind.ramp? with
      | some ramp => if s.doorUnit.rampStowed[ramp] then none else some (.interlock, 100 + deckNumber ramp)
      | none => none

/-- A standing demand is superseded: its card ends CANCELLED, detail 0 (R114, R116; LOG 15). -/
def supersedeDoor (d : Fin 32) (s : State) : State :=
  match s.doors[d].card with
  | some c =>
    endCard c .cancelled 0
      (putDoor d { s.doors[d] with card := none, lastOutcome := some .cancelled } s)
  | none => s

/-- A new HOST or WATCH demand: its card, its origin and the next arrival (R103). -/
def newDemand (d : Fin 32) (demand : DoorDemand) (c : CardId) (s : State) : DoorRecord :=
  { s.doors[d] with
    demand := demand, origin := cardOrigin c, card := some c, arrival := s.doorUnit.nextArrival }

/-- The next-arrival count advances (R103). -/
def advanceDoorArrival (s : State) : State :=
  { s with doorUnit := { s.doorUnit with nextArrival := s.doorUnit.nextArrival + 1 } }

/-- An accepted DOOR OPEN: the open operation starts (R114, R115). An open switch that is confirmed already ends
it only at the next notice that names the point (LOG 40). -/
def startDoorOpen (d : Fin 32) (c : CardId) (s : State) : State :=
  match s.doorEntry d with
  | some e =>
    let s := supersedeDoor d s
    let r := newDemand d .openDoor c s
    let s := advanceDoorArrival s
    let s :=
      if e.kind.isHydraulic then enterWaiting d { r with front := false } s
      else
        setDoor d
          { r.stopTimers with
            state := .opening, motionTimer := startTimer s.clock (1000 * e.openLimit) } s
    endDoorEvent s
  | none => s

/-- An accepted DOOR CLOSE: a close operation begins (R116). -/
def startDoorClose (d : Fin 32) (c : CardId) (s : State) : State :=
  let s := supersedeDoor d s
  let r := newDemand d .close c s
  endDoorEvent (beginClose d r (advanceDoorArrival s))

/-- An accepted DOOR CLEAR (R121). -/
def clearDoor (d : Fin 32) (s : State) : State :=
  let r := s.doors[d]
  endDoorEvent (restOrReclose d { r with state := r.switchState } s)

/-! ### Reset and adoption (R103) -/

/-- A fitted door's record at an adoption and at entry to RUNNING. -/
def freshDoor (s : State) (d : Fin 32) : DoorRecord :=
  let r := { DoorRecord.start with lastOutcome := s.doors[d].lastOutcome }
  match s.doorEntry d with
  | some e =>
    let r :=
      if s.reported e.station then
        let r := r.withInputs e s.stations[e.station].confirmed
        { r with state := r.switchState }
      else r
    { r with outputs := doorOutputs e.kind r }
  | none => r

/-- The door unit at adoption of a door or station table and at entry to RUNNING (R103): the records afresh,
the contributions ordinary, the ramp unit told of gate doors that were OPEN and are not, the zone unit told
that its demands have been cleared. -/
def adoptDoors (s : State) : State :=
  let before := s.doors
  let s := noteChanged ((List.finRange 32).map .door) s
    { s with
      doors := Vector.ofFn (freshDoor s)
      doorUnit := { s.doorUnit with relation := Vector.replicate 2 .idle, nextArrival := 0 } }
  let s := forEach 48 (fun i s => if s.stationKind i = .door then contribute i false s else s) s
  let s := forEach 32 (fun d s =>
    if before[d].state = .opened ∧ s.doors[d].state ≠ .opened then gateLeftOpen d s else s) s
  takeDemandsCleared s

end Sys2Proof.Machine
end

