-- ==== Sys2Proof/Machine/Ramps.lean ====
section
/-! DEFINITION. The ramp unit: reports, stages, program starts and ends, orders, and the notices of RAMP
stations and of the pack arbiter (04_ramp_motion.md, 05_pace_computation.md). Holds and failures stand in
RampHolds.lean. -/

namespace Sys2Proof.Machine

/-! ### Switches -/

/-- The state given by the switches (R64). -/
def RampRecord.switchState (r : RampRecord) : RampState :=
  if r.stowed && !r.landed then .stowed
  else if r.landed && !r.stowed then .landed
  else .stopped

/-- STOWED, LANDED or STOPPED. -/
def RampState.isResting : RampState → Bool
  | .stowed | .landed | .stopped => true
  | _ => false

/-- The door unit is told when the ramp has entered or left STOWED (R64). -/
def tellStowed (r : Fin 4) (s : State) : State :=
  takeRampStowed r (s.ramps[r].state == .stowed) s

/-- The switches in a confirmed image (R6). -/
def RampRecord.withSwitches (r : RampRecord) (image : Word) : RampRecord :=
  { r with stowed := bitOf image 8, landed := bitOf image 9 }

/-! ### Stages (R72, R73, R75) -/

/-- Stage record n, 1 to 12. -/
def RampEntry.stage? (e : RampEntry) (n : Nat) : Option StageRecord :=
  if h : 1 ≤ n ∧ n ≤ 12 then some e.stages[n - 1] else none

/-- The record of the stage that is running. -/
def State.runningStage (s : State) (r : Fin 4) : Option StageRecord :=
  match s.rampEntry r with
  | some e => if s.ramps[r].state = .moving then e.stage? s.ramps[r].stage else none
  | none => none

/-- The position has come to a mark or past it in the program's direction. -/
def reached (p : Program) (position mark : Nat) : Bool :=
  match p with
  | .lower => decide (mark ≤ position)
  | .raise => decide (position ≤ mark)
  | .none => false

/-- The switch a SWITCH stage waits for is confirmed 1. -/
def RampRecord.endSwitch (r : RampRecord) (landed : Bool) : Bool :=
  if landed then r.landed else r.stowed

/-- The end condition holds at stage entry (R72, step 5). -/
def StageRecord.metAtEntry (st : StageRecord) (r : RampRecord) : Bool :=
  match st.endCondition with
  | .time _ => false
  | .mark target => reached r.program r.position target
  | .switch landed => r.endSwitch landed

/-- The goal of a program (R75). -/
def Program.goal : Program → RampState
  | .lower => .landed
  | .raise => .stowed
  | .none => .stopped

/-- A program reaches a next stage of 0 (R75). -/
def endProgram (r : Fin 4) (s : State) : State :=
  match s.rampEntry r with
  | some e =>
    let before := s.ramps[r]
    let outcome := if before.switchState = before.program.goal then OrderOutcome.ok else .missedEnd
    let s := contributeValves r 0 true s
    let s := setRamp r
      { s.ramps[r].stopTimers with
        state := before.switchState, program := .none, stage := 0, programStage := 0, card := none,
        lastEnd := some outcome } s
    let s := releasePack e.pack (.ramp r) s
    tellStowed r (endCardOf before.card outcome before.position s)
  | none => s

/-- Entry to a stage, and through every stage that ends at once (R72). The next-stage links reach 0 within
12 stages (R59). -/
def enterStage : Nat → Fin 4 → Nat → State → State
  | 0, _, _, s => s
  | fuel + 1, r, n, s =>
    match s.rampEntry r with
    | none => s
    | some e =>
      match e.stage? n with
      | none => s
      | some st =>
        let before := s.ramps[r]
        let after :=
          { before with
            stage := n, programStage := n, awaitingGrant := false
            limitTimer := timerUnlessZero s.clock (100 * st.limit)
            durationTimer := match st.endCondition with
              | .time duration => startTimer s.clock (10 * duration)
              | _ => none
            pace := before.pace.stageEntry e st s.clock }
        let s := contributeValves r st.valves false (setRamp r after s)
        if st.metAtEntry after then
          if st.next = 0 then endProgram r s else enterStage fuel r st.next s
        else s

/-- Stages one event may run through. -/
def stageFuel : Nat := 13

/-- The running stage ends (R73): the next stage is entered, or the program ends. -/
def endStage (r : Fin 4) (s : State) : State :=
  match s.runningStage r with
  | some st => if st.next = 0 then endProgram r s else enterStage stageFuel r st.next s
  | none => s

/-- A grant notice reaches a ramp (R67). A ramp that is no longer fitted when a late grant reaches it, by a LOAD
TABLE RAMPS after it left MOVING, releases the pack with its park on the deck at once: the model's choice (LOG 56). -/
def takeRampGrant (p : Fin 2) (r : Fin 4) (s : State) : State :=
  let rec_ := s.ramps[r]
  if rec_.state = .moving then
    if rec_.awaitingGrant then enterStage stageFuel r rec_.programStage s else s
  else releasePack p (.ramp r) s

/-- A preemption demand reaches the ramp unit (R77). -/
def takePreemption (r : Fin 4) (s : State) : State :=
  let rec_ := s.ramps[r]
  if rec_.state = .moving ∧ rec_.stage ≠ 0 then holdRamp r .preemption s else s

/-! ### Reports (R62, R63, R94, R97) -/

/-- The last count and the over-travel mark of a report (R62). -/
def RampRecord.withCount (r : RampRecord) (e : RampEntry) (count : Byte) : RampRecord :=
  { r with lastCount := count, overTravel := r.overTravel || decide (e.travel < count.toNat) }

/-- The position a count gives, clamped to the travel marks (R62). -/
def positionOf (e : RampEntry) (count : Byte) : Nat := min e.travel count.toNat

/-- The advance d of R63 in the program's direction. -/
def advanceOf (p : Program) (old new : Nat) : Int :=
  match p with
  | .raise => (old : Int) - new
  | _ => (new : Int) - old

/-- The approach test of R97 starts the lead. -/
def approaches (r : RampRecord) (target : Nat) : Bool :=
  let near := match r.program with
    | .raise => target + 1
    | _ => target - 1
  reached r.program r.position near && !reached r.program r.position target &&
    r.pace.leadTimer.isNone && r.pace.l.isNone

/-- After a mark arrival of a MARK stage: the approach test, then the stage-end test (R94, R97, R73). -/
def markStageTests (r : Fin 4) (e : RampEntry) (target : Nat) (s : State) : State :=
  let rec_ := s.ramps[r]
  if approaches rec_ target then
    let pace := rec_.pace.startLead e s.clock
    let s := setRamp r { rec_ with pace := pace } s
    if pace.leadTimer.isNone then endStage r s else s
  else if reached rec_.program rec_.position target then endStage r s
  else s

/-- A mark arrival of k marks at a position (R63, R94). `rec_` holds the count. -/
def markArrival (r : Fin 4) (e : RampEntry) (rec_ : RampRecord) (position k : Nat) (s : State) : State :=
  let s := setRamp r
    { rec_ with position := position, pace := rec_.pace.markArrival e k s.clock } s
  match s.runningStage r with
  | some st =>
    match st.endCondition with
    | .mark target => markStageTests r e target s
    | _ => s
  | none => s

/-- A reported count, taken at its arrival (R62, R63). -/
def rampReport (r : Fin 4) (count : Byte) (s : State) : State :=
  match s.rampEntry r with
  | some e =>
    let rec_ := s.ramps[r].withCount e count
    let position := positionOf e count
    if rec_.state = .moving ∧ rec_.stage ≠ 0 then
      let d := advanceOf rec_.program rec_.position position
      if d ≤ -2 then failRamp r .reversed (setRamp r { rec_ with position := position } s)
      else if 1 ≤ d then markArrival r e rec_ position d.toNat s
      else setRamp r { rec_ with position := position } s
    else setRamp r { rec_ with position := position } s
  | none => s

/-- A SWITCH stage whose end switch is confirmed 1 ends (R73). -/
def switchStageTest (r : Fin 4) (s : State) : State :=
  match s.runningStage r with
  | some st =>
    match st.endCondition with
    | .switch landed => if s.ramps[r].endSwitch landed then endStage r s else s
    | _ => s
  | none => s

/-- A resting ramp takes the state given by the switches (R64). -/
def restRamp (r : Fin 4) (s : State) : State :=
  let rec_ := s.ramps[r]
  if rec_.state.isResting then tellStowed r (setRamp r { rec_ with state := rec_.switchState } s) else s

/-- A change notice at a ramp: the switches are recorded, the count is judged, then the switches act
(R62 to R64, R73; LOG 18). -/
def rampChange (image : Word) (count : Byte) (r : Fin 4) (s : State) : State :=
  let s := rampReport r count (setRamp r (s.ramps[r].withSwitches image) s)
  restRamp r (switchStageTest r s)

/-- A first-report notice at a ramp (R82). -/
def rampFirst (image : Word) (count : Byte) (r : Fin 4) (s : State) : State :=
  let before := s.ramps[r]
  if before.state = .off then
    let s := rampReport r count (setRamp r (before.withSwitches image) s)
    tellStowed r (setRamp r { s.ramps[r] with state := s.ramps[r].switchState } s)
  else if before.state = .fault ∧ before.faultCause = .stationLost then
    let s := rampReport r count (setRamp r (before.withSwitches image) s)
    tellStowed r
      (setRamp r
        { s.ramps[r] with
          state := s.ramps[r].switchState, faultCause := .none, program := .none, stage := 0,
          programStage := 0 } s)
  else rampChange image count r s

/-- A loss notice at a ramp (R81); it is passed to the pack arbiter (R48). -/
def rampLoss (r : Fin 4) (s : State) : State :=
  match s.rampEntry r with
  | some e =>
    let rec_ := s.ramps[r]
    let s := match rec_.state with
      | .moving => failRamp r .stationLost s
      | .fault => s
      | _ => setRamp r { rec_ with state := .fault, faultCause := .stationLost } s
    tellStowed r (parkReachesDeck r s)
  | none => s

/-- Notices of a RAMP station. -/
def rampsChange (i : Fin 48) (image : Word) (count : Byte) (s : State) : State :=
  forList (s.rampsOn i) (rampChange image count) s

def rampsFirst (i : Fin 48) (image : Word) (count : Byte) (s : State) : State :=
  forList (s.rampsOn i) (rampFirst image count) s

/-- A loss notice goes to the ramps whose adopted entry names the station now, as a delivery does (LOG 53). -/
def rampsLoss (i : Fin 48) (s : State) : State := forList (s.rampsOn i) rampLoss s

/-- A delivery notice with all valves off is passed to the pack arbiter (R48, R77), for the ramps whose adopted
entry names the station now. A ramp that still holds a pack parked when LOAD TABLE changes its station is heard
at its new station alone, and at none when it is no longer fitted: the model's choice (LOG 53). -/
def rampsDelivery (i : Fin 48) (image : BitVec 32) (s : State) : State :=
  if imageByte image 0 = 0 then
    forList (s.rampsOn i) parkReachesDeck s
  else s

/-- The filtered deck stop level becomes asserted: every MOVING ramp is held (R85), in ascending order, the
model's choice (LOG 50). -/
def rampsDeckStop (s : State) : State := forEach 4 (fun r => holdRamp r .deckStop) s

/-! ### Timers -/

/-- The duration timer of a TIME stage expires (R73). -/
def durationOver (r : Fin 4) (s : State) : State :=
  endStage r (setRamp r { s.ramps[r] with durationTimer := none } s)

/-- The stage-limit timer expires (R74). -/
def limitOver (r : Fin 4) (s : State) : State :=
  failRamp r .timedOut (setRamp r { s.ramps[r] with limitTimer := none } s)

/-- The blank timer expires (R93). -/
def blankOver (r : Fin 4) (s : State) : State :=
  let rec_ := s.ramps[r]
  setRamp r { rec_ with pace := { rec_.pace with blankTimer := none } } s

/-- The lead timer expires: the MARK stage ends where it stands (R98). -/
def leadOver (r : Fin 4) (s : State) : State :=
  let rec_ := s.ramps[r]
  endStage r (setRamp r { rec_ with pace := { rec_.pace with leadTimer := none } } s)

/-- The restart of the mark timer and the stall limit, while a stall can occur: a MARK or SWITCH stage is
running (R99). -/
def State.stallWatch (s : State) (r : Fin 4) : Option (Clock × Nat) :=
  match s.runningStage r with
  | some st =>
    match st.endCondition, s.ramps[r].pace.markTimer, s.ramps[r].pace.stallLimit with
    | .mark _, some start, some limit => some (start, limit)
    | .switch _, some start, some limit => some (start, limit)
    | _, _, _ => none
  | none => none

/-- A stall (R99, R100). -/
def stallRamp (r : Fin 4) (s : State) : State :=
  match s.rampEntry r with
  | some e =>
    let rec_ := s.ramps[r]
    if e.warn = true ∧ rec_.pace.warningCount = 0 then
      setRamp r { rec_ with pace := rec_.pace.warnStall e s.clock } s
    else failRamp r .stalled s
  | none => s

/-! ### Ramp orders (R65 to R71) -/

/-- Checks 3 to 7 of R65 for a program: the detail of INTERLOCK, or `none` when they pass. -/
def rampInterlock (e : RampEntry) (program : Program) (s : State) : Option Nat :=
  let zone := s.zones[e.zone].state
  if s.pins.stopLevel then some 1
  else if zone = .sealing then some 2
  else if program = .lower ∧ zone.isSealed = true then some 3
  else if s.packs[e.pack].state = .failed then some 4
  else if program = .lower then
    (e.gates.find? fun d => s.doors[d].state != .opened).map fun d => 100 + deckNumber d
  else none

/-- RAMP LOWER and RAMP RAISE are judged (R65). -/
def judgeProgram (r : Fin 4) (program : Program) (s : State) : Option (OrderOutcome × Nat) :=
  match s.rampEntry r with
  | none => some (.badTarget, 0)
  | some e =>
    match s.ramps[r].state with
    | .off | .moving | .fault => some (.wrongState, 0)
    | _ => (rampInterlock e program s).map fun detail => (.interlock, detail)

/-- The first stage of a program. -/
def RampEntry.firstStage (e : RampEntry) (program : Program) : Nat :=
  match program with
  | .lower => e.lowerFirst
  | _ => e.raiseFirst

/-- A program starts (R66). -/
def startProgram (r : Fin 4) (program : Program) (c : CardId) (s : State) : State :=
  match s.rampEntry r with
  | some e =>
    let rec_ := s.ramps[r]
    let s := setRamp r
      { rec_ with
        program := program, programStage := e.firstStage program, card := some c, overTravel := false,
        pace := rec_.pace.seed e, state := .moving, stage := 0, awaitingGrant := true } s
    tellStowed r (requestPack e.pack (.ramp r) .motion s)
  | none => s

/-- RAMP RESUME is judged (R69). -/
def judgeResume (r : Fin 4) (s : State) : Option (OrderOutcome × Nat) :=
  match s.rampEntry r with
  | none => some (.badTarget, 0)
  | some e =>
    if s.ramps[r].state = .held then
      (rampInterlock e s.ramps[r].program s).map fun detail => (.interlock, detail)
    else some (.wrongState, 0)

/-- The held program goes on (R69). -/
def resumeProgram (r : Fin 4) (c : CardId) (s : State) : State :=
  match s.rampEntry r with
  | some e =>
    let s := setRamp r
      { s.ramps[r] with card := some c, state := .moving, stage := 0, awaitingGrant := true } s
    requestPack e.pack (.ramp r) .motion s
  | none => s

/-- RAMP CLEAR is judged (R70). -/
def judgeRampClear (r : Fin 4) (s : State) : OrderOutcome × Nat :=
  match s.rampEntry r with
  | none => (.badTarget, 0)
  | some e =>
    if s.ramps[r].state = .fault then
      if s.reported e.station then (.ok, 0) else (.interlock, 0)
    else (.wrongState, 0)

/-- A ramp leaves FAULT by RAMP CLEAR (R70). -/
def clearRamp (r : Fin 4) (s : State) : State :=
  let rec_ := s.ramps[r]
  tellStowed r
    (setRamp r
      { rec_ with
        state := rec_.switchState, program := .none, stage := 0, programStage := 0,
        faultCause := .none } s)

/-! ### Reset and adoption (R60, R61) -/

/-- A ramp's record at adoption of a ramp or station table and at entry to RUNNING (R61). Over-travel is no
first, and yes again when the station's last count exceeds the travel marks (LOG 38). -/
def freshRamp (s : State) (r : Fin 4) : RampRecord :=
  let start := { RampRecord.start with lastEnd := s.ramps[r].lastEnd }
  match s.rampEntry r with
  | some e =>
    if s.reported e.station then
      let st := s.stations[e.station]
      let rec_ := (start.withSwitches st.confirmed).withCount e st.lastCount
      { rec_ with position := positionOf e st.lastCount, state := rec_.switchState }
    else if s.lostOrDisabled e.station then { start with state := .fault, faultCause := .stationLost }
    else start
  | none => start

/-- The ramp unit at adoption of a ramp or station table and at entry to RUNNING (R61). -/
def adoptRamps (s : State) : State :=
  let s := noteChanged ((List.finRange 4).map .ramp) s { s with ramps := Vector.ofFn (freshRamp s) }
  let s := forEach 48 (fun i s => if s.stationKind i = .ramp then contribute i false s else s) s
  forEach 4 tellStowed s

end Sys2Proof.Machine
end

