-- ==== Sys2Proof/Machine/Images.lean ====
section
/-! DEFINITION. The change counts and rewrites of the image records, and the reading of a word of exchange
memory as the host does it (R173, R186). Image records, card state words and the header are views of the
state. -/

namespace Sys2Proof.Machine

/-- The change count of an image record (R186). -/
def State.changeCount (s : State) : RecordId → Word
  | .station i => s.counts.stations[i]
  | .pack p => s.counts.packs[p]
  | .ramp r => s.counts.ramps[r]
  | .door d => s.counts.doors[d]
  | .zone z => s.counts.zones[z]
  | .slot n => s.counts.slots[n]
  | .watch k => s.counts.watch[k]

/-- The flag of an image record's category (R175). -/
def RecordId.flag : RecordId → Flag
  | .station _ => .stations
  | .pack _ => .packs
  | .ramp _ => .ramps
  | .door _ => .doors
  | .zone _ => .zones
  | .slot _ => .calls
  | .watch _ => .watch

/-- Advance a record's change count by 2: the two advances of one rewrite (R186). -/
def advanceCount (id : RecordId) (c : ImageCounts) : ImageCounts :=
  match id with
  | .station i => { c with stations := c.stations.set i (c.stations[i] + 2) }
  | .pack p => { c with packs := c.packs.set p (c.packs[p] + 2) }
  | .ramp r => { c with ramps := c.ramps.set r (c.ramps[r] + 2) }
  | .door d => { c with doors := c.doors.set d (c.doors[d] + 2) }
  | .zone z => { c with zones := c.zones.set z (c.zones[z] + 2) }
  | .slot n => { c with slots := c.slots.set n (c.slots[n] + 2) }
  | .watch k => { c with watch := c.watch.set k (c.watch[k] + 2) }

/-- A rewrite of an image record: the change count, then the category's flag (R186). -/
def rewrite (id : RecordId) (s : State) : State :=
  raiseFlag id.flag { s with counts := advanceCount id s.counts }

/-! ### Reading exchange memory -/

/-- A record of a category by its place in the category's area. -/
def recordIn {n : Nat} (make : Fin n → RecordId) (base size a : Nat) : Option (RecordId × Nat) :=
  if h : (a - base) / size < n then some (make ⟨(a - base) / size, h⟩, (a - base) % size) else none

/-- The image record an address of the image area lies in, and the word within it. -/
def recordAt (a : Nat) : Option (RecordId × Nat) :=
  if a < Config.imageBase then none
  else if a < Config.packImageBase then recordIn .station Config.stationImageBase 16 a
  else if a < Config.rampImageBase then recordIn .pack Config.packImageBase 16 a
  else if a < Config.doorImageBase then recordIn .ramp Config.rampImageBase 32 a
  else if a < Config.zoneImageBase then recordIn .door Config.doorImageBase 16 a
  else if a < Config.slotImageBase then recordIn .zone Config.zoneImageBase 16 a
  else if a < Config.watchImageBase then recordIn .slot Config.slotImageBase 16 a
  else if a < Config.imageLimit then recordIn .watch Config.watchImageBase 16 a
  else none

/-- A word of the header (12). -/
def State.headerWord (s : State) (a : Nat) : Word :=
  match a with
  | 0 => s.cards.completed
  | 1 => s.misuse.address
  | 2 =>
    match s.misuse.cause with
    | .none => 0
    | .partArea => 1
    | .state => 2
    | .takenCard => 3
  | 3 => bitsOf [s.pins.stopLevel]
  | 4 => s.tables.adopted.setWidth 16
  | _ => 0

/-- The card an address of the card area lies in, and the word within it. -/
def cardAt (a : Nat) : Option (CardId × Nat) :=
  if Config.cardBase ≤ a then
    if h : (a - Config.cardBase) / 16 < 40 then
      some (⟨(a - Config.cardBase) / 16, h⟩, (a - Config.cardBase) % 16)
    else none
  else none

/-- A word of exchange memory as the part holds it. -/
def State.sharedWord (s : State) (a : Nat) : Word :=
  if a < Config.cardBase then s.headerWord a
  else
    match cardAt a with
    | some (c, 0) => (s.cardState c).code
    | some _ => s.mem.read a
    | none =>
      match recordAt a with
      | some (id, 0) => s.changeCount id
      | some (id, k + 1) => (s.view id).getD k 0
      | none => s.mem.read a

/-- What a host read of exchange memory returns (R173). -/
def State.readWord (s : State) (a : BitVec 14) : Word :=
  if s.part = .starting then 0 else s.sharedWord a.toNat

end Sys2Proof.Machine
end

