-- ==== Sys2Proof/Machine/Rewrites.lean ====
section
/-! DEFINITION. The rewrites of image records: the events they are for the watch unit, with its evaluation,
trips and action cards (R162 to R167); and the publishing of the records an event has changed (R186; LOG 9). -/

namespace Sys2Proof.Machine

/-! ### Evaluation (R163 to R167) -/

/-- The record a subject and number name (R163). -/
def subjectRecord (subject : Subject) (number : Nat) : Option RecordId :=
  match subject with
  | .none => none
  | .doorState => (ofDeckNumber 32 number).map .door
  | .rampState | .rampPosition => (ofDeckNumber 4 number).map .ramp
  | .zoneState | .zoneAlarm => (ofDeckNumber 8 number).map .zone
  | .packState => (ofDeckNumber 2 number).map .pack
  | .stationState => (ofDeckNumber 48 number).map .station

/-- The value a subject tests in a record (R163). -/
def State.subjectValue (s : State) (subject : Subject) (id : RecordId) : Word :=
  match id with
  | .door d => wordOf s.doors[d].state.code
  | .ramp r =>
    if subject = .rampPosition then wordOf s.ramps[r].position else wordOf s.ramps[r].state.code
  | .zone z => if subject = .zoneAlarm then bitsOf [s.zones[z].alarm] else wordOf s.zones[z].state.code
  | .pack p => wordOf s.packs[p].state.code
  | .station i => wordOf s.stations[i].state.code
  | .slot _ | .watch _ => 0

/-- The test of a value (R164). -/
def WatchRecord.matches (w : WatchRecord) (v : Word) : Bool :=
  match w.test with
  | .equal => (v ^^^ w.reference) &&& w.mask == 0
  | .atLeast => decide (w.reference ≤ v)
  | .atMost => decide (v ≤ w.reference)

/-- The record a channel watches. -/
def WatchRecord.record? (w : WatchRecord) : Option RecordId := subjectRecord w.subject w.number.toNat

/-- Post an action card, or mark the overrun (R167). -/
def postActionCard (k : Fin 8) (s : State) : State :=
  let w := s.watch[k]
  match ofSlotNumber 8 w.actionCard.toNat with
  | some n =>
    let c := actionCard n
    match s.cardState c with
    | .free | .done | .refused => appendIntake c (setCardState c .posted s)
    | .posted | .taken => setWatch k { w with overrun := true } s
  | none => s

/-- A trip that counts: match, trip count, and the action of POST (R165, R166). -/
def countTrip (k : Fin 8) (act : Bool) (s : State) : State :=
  let w := s.watch[k]
  let s := setWatch k { w with matched := true, tripCount := w.tripCount + 1 } s
  if act && w.post then postActionCard k s else s

/-- The channel is an A channel (even). -/
def isChannelA (k : Fin 8) : Bool := k.val % 2 == 0

/-- The A channel of a channel's pair. -/
def channelA (k : Fin 8) : Fin 8 := ⟨k.val - k.val % 2, by omega⟩

/-- The B channel of a channel's pair. -/
def channelB (k : Fin 8) : Fin 8 := ⟨k.val - k.val % 2 + 1, by omega⟩

/-- A trip (R165, R166). -/
def tripChannel (k : Fin 8) (s : State) : State :=
  if !s.watch[k].sequence then countTrip k true s
  else if isChannelA k then
    let s := countTrip k false s
    setWatch k { s.watch[k] with aSeen := true } s
  else
    let a := channelA k
    if s.watch[a].aSeen then
      let s := countTrip k true s
      setWatch a { s.watch[a] with aSeen := false } s
    else s

/-- Evaluate an armed channel against its record (R165). -/
def evaluateChannel (k : Fin 8) (s : State) : State :=
  let w := s.watch[k]
  match w.record? with
  | some id =>
    let matching := w.matches (s.subjectValue w.subject id)
    let s := setWatch k { w with lastMatching := matching } s
    if matching && !w.lastMatching then tripChannel k s else s
  | none => s

/-- A rewrite of a record is evaluated by every armed channel that watches it, ascending (R165). -/
def evaluateRecord (id : RecordId) (s : State) : State :=
  forEach 8 (fun k s =>
    if s.watch[k].armed && s.watch[k].record? == some id then evaluateChannel k s else s) s

/-! ### Publishing (R186; LOG 9, LOG 10, LOG 11) -/

/-- Rewrite the record of each channel that shows other fields in one state than in another (R172). -/
def rewriteChannels (differs : Fin 8 → Bool) (s : State) : State :=
  forEach 8 (fun k s => if differs k then rewrite (.watch k) s else s) s

/-- A channel's record shows other fields in two states. -/
def channelDiffers (before s : State) (k : Fin 8) : Bool := s.watch[k].view != before.watch[k].view

/-- One event at the watch unit: what an order stores in the channels, then the evaluation that goes with it.
A channel that either changes is rewritten once (R172; LOG 9). -/
def watchEvent (store evaluate : State → State) (s : State) : State :=
  let stored := store s
  let t := evaluate stored
  rewriteChannels (fun k => channelDiffers s stored k || channelDiffers stored t k) t

/-- The records whose rewrites channels may watch, and the call slots, in the order they are rewritten. -/
def ownerRecords : List RecordId :=
  (List.finRange 48).map .station ++ (List.finRange 2).map .pack ++ (List.finRange 4).map .ramp ++
    (List.finRange 32).map .door ++ (List.finRange 8).map .zone ++ (List.finRange 16).map .slot

/-- An event rewrites a record when a field it shows has changed, be it back to what it was, or when its rule
says so. -/
def isRewritten (forced : RecordId → Bool) (s : State) (id : RecordId) : Bool :=
  forced id || s.changed.contains id

/-- A rewrite of a record, and the event it is for the watch unit (R165). -/
def rewriteWatched (id : RecordId) (s : State) : State :=
  watchEvent (fun s => s) (evaluateRecord id) (rewrite id s)

/-- The rewrites of an event: each record once, with its evaluation by the watch unit, at which the channels
that change are rewritten; then the channels whose rewrite the event's own rule asks for (R162, R165, R172).
All of this comes after everything else the event does, the ends of cards among it: an action card whose
order the event completes is DONE or REFUSED when a channel posts it, one of the two orders R167 allows
(LOG 45). The evaluation at an arming is no rewrite of a watched record and comes before (LOG 54). -/
def publish (forced : RecordId → Bool) (s : State) : State :=
  rewriteChannels (fun k => forced (.watch k))
    (forList ownerRecords (fun id s => if isRewritten forced s id then rewriteWatched id s else s) s)

/-- An event: the records it changes are rewritten at its end (R165, R186). An event within another notes its
changes apart, so a record that both change is rewritten by each. -/
def asEvent (forced : RecordId → Bool) (act : State → State) (s : State) : State :=
  let t := publish forced (act { s with changed := [] })
  { t with changed := s.changed }

/-- No record is rewritten but for a change. -/
def onChange : RecordId → Bool := fun _ => false

/-- A hand-over that is in flight is taken before its turn, as an event of its own (LOG 8). -/
def takeEarly (h : Handover) (act : State → State) (s : State) : State :=
  if s.inFlight h then asEvent onChange act (dropHandover h s) else s

end Sys2Proof.Machine
end

