-- ==== Sys2Proof/Machine/PackNotices.lean ====
section
/-! DEFINITION. The pack arbiter's failures and recovery, the notices of PACK stations, and the arbiter at
reset and adoption (R42, R43, R50, R54 to R56). -/

namespace Sys2Proof.Machine

/-- A grant notice is taken by its requester (R67, R110). -/
def takeGrant (p : Fin 2) (q : Requester) (s : State) : State :=
  match q with
  | .ramp r => takeRampGrant p r s
  | .doorUnit => takeDoorGrant p s

/-- The requester to which a grant notice of the pack is in flight. -/
def State.grantInFlight (s : State) (p : Fin 2) : Option Requester :=
  s.handovers.findSome? fun h =>
    match h with
    | .grant p' q => if p' = p then some q else none
    | _ => none

/-- A grant notice still in flight is taken before the arbiter's next notice about the pack (LOG 8). -/
def settleGrant (p : Fin 2) (s : State) : State :=
  match s.grantInFlight p with
  | some q => takeEarly (.grant p q) (takeGrant p q) s
  | none => s

/-- A preemption demand of the pack that is in flight falls. -/
def dropPreemption (p : Fin 2) (s : State) : State :=
  { s with handovers := s.handovers.filter fun h =>
      match h with
      | .preemption p' _ => p' != p
      | _ => true }

/-- A failure notice to a requester (R83, R112). -/
def packFailureNotice (p : Fin 2) (q : Requester) (s : State) : State :=
  match q with
  | .ramp r => failRamp r .packFailed s
  | .doorUnit => doorsPackFailed p s

/-- The record of a pack that enters FAILED (R55). -/
def PackRecord.failed (r : PackRecord) (cause : PackFailureCause) (dwell : Timer) : PackRecord :=
  { r with
    state := .failed, failureCause := cause, pumpRun := false, pumpDelivered := false,
    parked := false, parkOnDeck := false, preemptionDemanded := false, holder := none,
    startTimer := dwell, parkHoldTimer := none }

/-- The failure notices of a pack, by its record at the failure: to the holder, then to each requester on the
list (R55). -/
def handFailureNotices (p : Fin 2) (r : PackRecord) (s : State) : State :=
  let s := match r.holder with
    | some q => packFailureNotice p q s
    | none => s
  forList (r.requests.map (·.requester)) (packFailureNotice p) s

/-- Entry to FAILED (R55): the pump is switched off URGENT, the recovery dwell runs, and the holder and each
requester on the list are handed a failure notice. A grant notice still in flight is taken before them, by the
pack that is FAILED already: it grants nothing anew, and every entry stays on the list (LOG 8). -/
def enterFailed (p : Fin 2) (cause : PackFailureCause) (s : State) : State :=
  let r := s.packs[p]
  let dwell := startTimer s.clock (1000 * (s.packEntry p).startLimit)
  let s := contributePack p true (setPack p (r.failed cause dwell) (dropPreemption p s))
  handFailureNotices p r (settleGrant p s)

/-- A pack that is not FAILED fails (R54). -/
def failPack (p : Fin 2) (cause : PackFailureCause) (s : State) : State :=
  if s.packs[p].state = .failed then s else enterFailed p cause s

/-- The inputs a notice names, taken into the record (R42, R54). -/
def PackRecord.withInputs (r : PackRecord) (image named : Word) : PackRecord :=
  { r with
    pressureReady := if bitOf named 0 then bitOf image 0 else r.pressureReady
    packFault := if bitOf named 1 then bitOf image 1 else r.packFault
    pumpRunning := if bitOf named 2 then bitOf image 2 else r.pumpRunning }

/-- What an inputs notice may lead to when the pack does not fail by it (R50, R56). -/
def judgePack (p : Fin 2) (s : State) : State := judgeRecovery p (judgeReady p s)

/-- A change notice at a pack (R50, R54, R56). -/
def packChange (image named : Word) (p : Fin 2) (s : State) : State :=
  let r := s.packs[p].withInputs image named
  let s := setPack p r s
  if r.state ≠ .failed ∧ r.packFault = true then failPack p .fault s
  else if r.state = .ready ∧ bitOf named 0 = true ∧ r.pressureReady = false then
    failPack p .pressureLost s
  else judgePack p s

/-- A first-report notice at a pack: a fault fails it; pressure 0 does so by a change notice only
(R54; LOG 26). -/
def packFirst (image : Word) (p : Fin 2) (s : State) : State :=
  let r := s.packs[p].withInputs image 0x7
  let s := setPack p r s
  if r.state ≠ .failed ∧ r.packFault = true then failPack p .fault s else judgePack p s

/-- Notices of a PACK station. -/
def packsChange (i : Fin 48) (image named : Word) (s : State) : State :=
  forList (s.packsOn i) (packChange image named) s

def packsFirst (i : Fin 48) (image : Word) (s : State) : State :=
  forList (s.packsOn i) (packFirst image) s

def packsLoss (i : Fin 48) (s : State) : State :=
  forList (s.packsOn i) (fun p => failPack p .station) s

/-- A delivery notice whose image has pump run on (R50). -/
def packsDelivery (i : Fin 48) (image : BitVec 32) (s : State) : State :=
  forList (s.packsOn i) (fun p s =>
    if s.packs[p].state = .starting ∧ image.getLsbD 0 = true then
      judgeReady p (setPack p { s.packs[p] with pumpDelivered := true } s)
    else s) s

/-- The start limit expires (R50). -/
def startLimitOver (p : Fin 2) (s : State) : State :=
  failPack p .startLimit (setPack p { s.packs[p] with startTimer := none } s)

/-- The recovery dwell expires (R56). -/
def recoveryOver (p : Fin 2) (s : State) : State :=
  judgeRecovery p (setPack p { s.packs[p] with startTimer := none } s)

/-- A fitted pack whose station is LOST or DISABLED fails with cause STATION (R42, R43, R54). -/
def judgePackStation (p : Fin 2) (s : State) : State :=
  match (s.packEntry p).station with
  | some i => if s.lostOrDisabled i then failPack p .station s else s
  | none => s

/-- The arbiter at entry to RUNNING (R42). -/
def startPacks (s : State) : State :=
  let s := noteChanged ((List.finRange 2).map .pack) s
    { s with packs := Vector.replicate 2 PackRecord.start }
  let s := forEach 2 (fun p => contributePack p false) s
  forEach 2 judgePackStation s

/-- A pack at adoption of a pack table (R43). -/
def rejudgePack (p : Fin 2) (s : State) : State :=
  let s := judgePackStation p s
  if s.packs[p].state = .idle ∧ s.packs[p].requests.isEmpty = false then startPump p s else s

/-- The arbiter at adoption of a pack table (R43): lists and designations are kept, a pump that ran is
switched off URGENT at the station it had before. -/
def adoptPacks (before : Tables) (s : State) : State :=
  let old := s.packs
  let s := noteChanged ((List.finRange 2).map .pack) s
    { s with
      packs := Vector.ofFn fun p : Fin 2 =>
        { PackRecord.start with requests := old[p].requests, designated := old[p].designated } }
  let s := forEach 2 (fun p s =>
    match before.packs[p].station with
    | some i => if old[p].pumpRun then contribute i true s else s
    | none => s) s
  forEach 2 rejudgePack s

end Sys2Proof.Machine
end

