-- ==== Sys2Proof/Machine/ZoneOrders.lean ====
section
/-! DEFINITION. The zone unit toward its neighbours: sensor notices, the placing and withdrawing of the
doors' demands, the zone orders, and the zones at reset and adoption (R127 to R129, R132, R138 to R142). -/

namespace Sys2Proof.Machine

/-! ### Sensor points (R129) -/

/-- Change the points of a zone that lie on a station, both of them when both do: the alarm is judged after the
two, not between them (LOG 55). -/
def changePoints (z : Fin 8) (i : Fin 48) (f : Fin 4 → PointRecord → PointRecord) (s : State) : State :=
  let r := s.zones[z]
  let named := (s.zoneEntry z).points
  let points := Vector.ofFn fun k : Fin 2 =>
    match named[k.val]? with
    | some (station, point) => if station = i then f point r.points[k] else r.points[k]
    | none => r.points[k]
  setZone z { r with points := points } s

/-- The zones that name a point of the station, ascending. -/
def State.zonesNaming (s : State) (i : Fin 48) : List (Fin 8) :=
  (List.finRange 8).filter fun z => (s.zoneEntry z).points.any fun x => x.1 == i

/-- A notice of a SENSOR station: in each zone that names a point of it the points change, and then the alarm
is judged (R129, R130). The zone unit takes no notice while the part is not RUNNING (R127). R130 has the alarm
judged at every change of a point; where one notice changes both points of a zone, the model judges once after
both, its own choice (LOG 55), so one point that falls and one that rises leave the alarm present and restart
no stopped alert timer. The zones are taken ascending, the model's choice (LOG 50). -/
def sensorNotice (i : Fin 48) (f : Fin 4 → PointRecord → PointRecord) (s : State) : State :=
  if s.part = .running then
    forList (s.zonesNaming i) (fun z s => judgeAlarm z (changePoints z i f s)) s
  else s

/-- A change notice takes the inputs it names. -/
def sensorsChange (i : Fin 48) (image named : Word) (s : State) : State :=
  sensorNotice i
    (fun point r => if bitOf named point.val then { r with active := bitOf image point.val } else r) s

/-- A first-report notice. -/
def sensorsFirst (i : Fin 48) (image : Word) (s : State) : State :=
  sensorNotice i (fun point _ => { active := bitOf image point.val, lost := false }) s

/-- A loss notice. -/
def sensorsLoss (i : Fin 48) (s : State) : State :=
  sensorNotice i (fun _ r => { r with lost := true }) s

/-! ### The demand set (R118, R132) -/

/-- The door unit takes a zone's demand set door by door, in ascending order: R118 and R132 give the doors of
one set no order (LOG 46). -/
def placeDemands (z : Fin 8) (s : State) : State := forList (s.doorsOfZone z) (takeDemand z) s

/-- The door unit reports a demand set taken: the zone unit takes the doors' states and judges (R132, R133). It
takes no report while the part is not RUNNING (R127). -/
def reportPlacement (z : Fin 8) (s : State) : State :=
  if s.part = .running then
    judgeSeal z
      (setZone z
        { s.zones[z] with doorStates := s.freshDoorStates z, placementPending := false } s)
  else s

/-- A zone's demand set reaches the door unit (R118, R132). -/
def takeZoneDemand (z : Fin 8) (s : State) : State :=
  reportPlacement z (endDoorEvent (placeDemands z s))

/-- The zone hold and the demand set of a zone that are still in flight at its release are taken there, each
as an event of its own. The zone, CLEAR already, makes no judgement of the placement (LOG 8). -/
def settleSealing (z : Fin 8) (s : State) : State :=
  takeEarly (.zoneDemand z) (fun s => endDoorEvent (placeDemands z s))
    (takeEarly (.zoneHold z) (takeZoneHold z) s)

/-- The starts of a zone's doors that are in flight fall (LOG 8). -/
def dropStarts (z : Fin 8) (s : State) : State :=
  forList (s.doorsOfZone z) (fun d => dropHandover (.doorStart d)) s

/-! ### Zone orders (R138 to R142) -/

/-- A zone record without its start requests and its stagger timer. -/
def ZoneRecord.withoutStarts (r : ZoneRecord) : ZoneRecord :=
  { r with startRequests := [], staggerTimer := none }

/-- ZONE RELEASE takes a sealed zone to CLEAR: its card ends, its doors are handed the withdrawal of its
demands, no start is left requested or given, and the call unit is told (R140, R142). That a start in flight
falls and placement pending becomes no is the model's choice (LOG 8). The doors take the withdrawal in ascending
order, so of several that stop the highest is the last door end: the model's choice (LOG 50). -/
def releaseSealed (z : Fin 8) (s : State) : State :=
  let r := s.zones[z]
  let s := setZone z
    { r.withoutStarts with state := .clear, card := none, placementPending := false } s
  let s := settleSealing z (endCardOf r.card .cancelled (r.doorCount - r.closedCount) s)
  let s := endDoorEvent (forList (s.doorsOfZone z) takeDemandWithdrawal s)
  reportZoneState z .clear (dropStarts z (setZone z s.zones[z].withoutStarts s))

/-- ZONE RELEASE takes an alerted zone to CLEAR (R142). -/
def releaseAlert (z : Fin 8) (s : State) : State :=
  reportZoneState z .clear
    (setZone z { s.zones[z] with state := .clear, alertTimer := none } s)

/-- A CANCEL of the zone's card (R141). -/
def cancelZone (z : Fin 8) (s : State) : State :=
  let card := s.zones[z].card
  endCardOf card .cancelled 0 (setZone z { s.zones[z] with card := none } s)

/-! ### Reset and adoption (R128) -/

/-- A named point judged from its station's record (R128). -/
def freshPoint (s : State) (named : Option (Fin 48 × Fin 4)) : PointRecord :=
  match named with
  | some (i, point) =>
    { active := s.reported i && bitOf s.stations[i].confirmed point.val
      lost := s.lostOrDisabled i ||
        (s.stations[i].state == .present && s.stations[i].reportAwaited) }
  | none => ⟨false, false⟩

/-- The points of a zone judged afresh. -/
def freshPoints (s : State) (z : Fin 8) : Vector PointRecord 2 :=
  Vector.ofFn fun k : Fin 2 => freshPoint s (s.zoneEntry z).points[k.val]?

/-- A zone record at entry to RUNNING and at adoption of a zone table, before its alarm is judged. -/
def freshZone (s : State) (keepLastEnd : Bool) (z : Fin 8) : ZoneRecord :=
  { ZoneRecord.start with
    points := freshPoints s z
    doorStates := s.freshDoorStates z
    lastDoorEnd := if keepLastEnd then s.zones[z].lastDoorEnd else none }

/-- The zone unit at entry to RUNNING and at adoption of a zone table (R128): the call unit is told the state
of every zone. -/
def adoptZones (keepLastEnd : Bool) (s : State) : State :=
  let s := noteChanged ((List.finRange 8).map .zone) s
    { s with zones := Vector.ofFn (freshZone s keepLastEnd) }
  let s := forEach 8 judgeAlarm s
  forEach 8 (fun z s => if s.zones[z].state = .sealing then s
    else reportZoneState z s.zones[z].state s) s

/-- The zone unit at adoption of a station table (R128). -/
def rejudgePoints (s : State) : State :=
  forEach 8 (fun z s => judgeAlarm z (setZone z { s.zones[z] with points := freshPoints s z } s)) s

end Sys2Proof.Machine
end

