-- ==== Sys2Proof/Machine/StationTable.lean ====
section
/-! DEFINITION. The station table: the taking of hand-overs from the line controller, confirmation, rejoin,
notices to the owners, STATION DISABLE and ENABLE, and adoption (02_stations.md). -/

namespace Sys2Proof.Machine

/-! ### Notices to owners (R35) -/

/-- A first-report notice to the owner of a station. -/
def firstNotice (i : Fin 48) (s : State) : State :=
  let r := s.stations[i]
  match s.stationKind i with
  | .door => doorsFirst i r.confirmed s
  | .ramp => rampsFirst i r.confirmed r.lastCount s
  | .pack => packsFirst i r.confirmed s
  | .call => callCount i r.lastCount s
  | .sensor => sensorsFirst i r.confirmed s
  | .none => s

/-- A change notice; `named` has a bit for each input whose confirmed value changed. -/
def changeNotice (i : Fin 48) (named : Word) (s : State) : State :=
  let r := s.stations[i]
  match s.stationKind i with
  | .door => doorsChange i r.confirmed named s
  | .ramp => rampsChange i r.confirmed r.lastCount s
  | .pack => packsChange i r.confirmed named s
  | .call => callCount i r.lastCount s
  | .sensor => sensorsChange i r.confirmed named s
  | .none => s

/-- A loss notice. -/
def lossNotice (i : Fin 48) (s : State) : State :=
  match s.stationKind i with
  | .door => doorsLoss i s
  | .ramp => rampsLoss i s
  | .pack => packsLoss i s
  | .call => callLoss i s
  | .sensor => sensorsLoss i s
  | .none => s

/-- A delivery notice with the image the station acknowledged. -/
def deliveryNotice (i : Fin 48) (image : BitVec 32) (s : State) : State :=
  match s.stationKind i with
  | .ramp => rampsDelivery i image s
  | .pack => packsDelivery i image s
  | .call => callDelivery i image s
  | .door | .sensor | .none => s

/-! ### Reports (R29 to R34) -/

/-- The confirmed inputs of a kind in a report (R24). -/
def reportInputs (k : StationKind) (report : Word) : Word := report &&& k.inputMask

/-- The count of a report; 0 for a kind without one (R26, R33). -/
def reportCount (k : StationKind) (report : Word) : Byte :=
  if k.hasCount then report.setWidth 8 else 0

/-- A report adopted whole (R31). -/
def StationRecord.adopt (r : StationRecord) (k : StationKind) (report : Word) : StationRecord :=
  { r with
    confirmed := reportInputs k report, lastCount := reportCount k report, candidate := none,
    repeatCount := 0, reportAwaited := false }

/-- Adopt a report whole and tell the owner (R31). -/
def adoptWhole (i : Fin 48) (r : StationRecord) (report : Word) (s : State) : State :=
  firstNotice i (setStation i (r.adopt (s.stationKind i) report) s)

/-- Confirmation of a reported set (R32). -/
def StationRecord.confirm (r : StationRecord) (confirmCount : Nat) (reported : Word) : StationRecord :=
  if reported = r.confirmed then { r with candidate := none, repeatCount := 0 }
  else
    let n := if r.candidate = some reported then r.repeatCount + 1 else 1
    if confirmCount ≤ n then { r with confirmed := reported, candidate := none, repeatCount := 0 }
    else { r with candidate := some reported, repeatCount := n }

/-- A report of a PRESENT station that has reported before (R32, R33): a change notice is handed when a
confirmation completes or the kind carries a count. -/
def confirmReport (i : Fin 48) (r : StationRecord) (report : Word) (s : State) : State :=
  let k := s.stationKind i
  let after :=
    { r.confirm s.tables.stations[i].confirmCount (reportInputs k report) with
      lastCount := reportCount k report }
  let named := r.confirmed ^^^ after.confirmed
  let s := setStation i after s
  if named ≠ 0 ∨ k.hasCount = true then changeNotice i named s else s

/-- The ordinary queue request after an ABSENT station's first report (R29). -/
def requestIfNone (i : Fin 48) (s : State) : State :=
  if (s.stationKind i).takesSets ∧ (s.line.entry? i).isNone then
    queueRequest i s.stations[i].image false s
  else s

/-- A rejoin begins (R34). -/
def beginRejoin (i : Fin 48) (r : StationRecord) (s : State) : State :=
  if (s.stationKind i).takesSets then
    queueRequest i r.image true (setStation i { r with rejoinPending := true } s)
  else setStation i { r with state := .present } s

/-- An ANSWERED POLL is handed over (R27, R29). -/
def takeReport (i : Fin 48) (report : Word) (s : State) : State :=
  let r := { s.stations[i] with missCount := 0 }
  match r.state with
  | .disabled => s
  | .absent => requestIfNone i (adoptWhole i { r with state := .present } report s)
  | .present => if r.reportAwaited then adoptWhole i r report s else confirmReport i r report s
  | .lost => if r.rejoinPending then setStation i r s else beginRejoin i r s

/-- An ANSWERED SET is handed over (R27, R30). -/
def takeAcknowledgement (i : Fin 48) (image : BitVec 32) (s : State) : State :=
  let r := { s.stations[i] with missCount := 0 }
  match r.state with
  | .disabled => s
  | .absent => deliveryNotice i image (setStation i { r with state := .present } s)
  | .present => deliveryNotice i image (setStation i r s)
  | .lost =>
    if r.rejoinPending then
      deliveryNotice i image
        (setStation i
          { r with state := .present, rejoinPending := false, reportAwaited := true } s)
    else deliveryNotice i image s

/-- Entry to LOST (R28). -/
def loseStation (i : Fin 48) (r : StationRecord) (s : State) : State :=
  lossNotice i (removalRequest i
    (setStation i
      { r with
        state := .lost, missCount := Config.missLimit, candidate := none, repeatCount := 0,
        reportAwaited := true } s))

/-- Another final outcome is handed over (R27, R28). -/
def takeMiss (i : Fin 48) (s : State) : State :=
  let r := s.stations[i]
  match r.state with
  | .disabled => s
  | .absent | .present =>
    let misses := r.missCount + 1
    if Config.missLimit ≤ misses then loseStation i r s
    else setStation i { r with missCount := misses } s
  | .lost =>
    if r.rejoinPending then
      removalRequest i (setStation i { r with rejoinPending := false, missCount := Config.missLimit } s)
    else s

/-- The hand-over of a transaction with its final outcome (R14). -/
def takeHandOver (t : Transaction) (o : LineOutcome) (payload : List Byte) (s : State) : State :=
  match o with
  | .answered =>
    if t.isSet then takeAcknowledgement t.station t.image s
    else takeReport t.station (reportWord payload) s
  | _ => takeMiss t.station s

/-- An attempt ends; a transaction that ends with it is handed over (R11, R14). -/
def finishAttempt (t : Transaction) (o : LineOutcome) (payload : List Byte) (s : State) : State :=
  let e := endAttempt t o s
  if e.final then takeHandOver t o payload e.state else e.state

/-! ### Station orders (R38, R39) -/

/-- A station is taken out of service (R38). -/
def disableStation (i : Fin 48) (s : State) : State :=
  let r := s.stations[i]
  if r.state = .disabled then s
  else
    lossNotice i (removalRequest i
      (setStation i
        { r with
          state := .disabled, missCount := 0, rejoinPending := false, reportAwaited := true,
          candidate := none, repeatCount := 0 } s))

/-- A station is returned to service (R39). -/
def enableStation (i : Fin 48) (s : State) : State :=
  let r := s.stations[i]
  if r.state = .disabled then
    setStation i { r with state := .absent, missCount := 0, reportAwaited := true } s
  else s

/-! ### Adoption (R26) -/

/-- A station record at adoption of a station table. The composed image stands until it is recomposed. -/
def adoptedStation (s : State) (i : Fin 48) : StationRecord :=
  let e := s.tables.stations[i]
  { StationRecord.start with
    state := if e.kind != .none && e.enabledAtStart then .absent else .disabled
    image := s.stations[i].image }

/-- The station table's records at adoption of a station table. -/
def adoptStations (s : State) : State :=
  noteChanged ((List.finRange 48).map .station) s { s with stations := Vector.ofFn (adoptedStation s) }

end Sys2Proof.Machine
end

