-- ==== Sys2Proof/Machine/Watch.lean ====
section
/-! DEFINITION. The orders of the watch unit: WATCH ARM, WATCH DISARM and WATCH CLEAR (R168 to R171). -/

namespace Sys2Proof.Machine

/-! ### Watch orders (R168 to R171) -/

/-- The subject of a code; NONE is not one of the seven. -/
def Subject.ofCode (w : Word) : Option Subject :=
  [Subject.doorState, .rampState, .rampPosition, .zoneState, .packState, .stationState, .zoneAlarm].find?
    fun x => x.code == w.toNat

def WatchTest.ofCode (w : Word) : Option WatchTest :=
  [WatchTest.equal, .atLeast, .atMost].find? fun x => x.code == w.toNat

/-- The fields an accepted WATCH ARM stores, or the first parameter that fails (R168). -/
def armFields (s : State) (c : CardId) : Except Nat WatchRecord :=
  match Subject.ofCode (s.cardParameter c 1) with
  | none => .error 1
  | some subject =>
    if (subjectRecord subject (s.cardParameter c 2).toNat).isNone then .error 2
    else
      match WatchTest.ofCode (s.cardParameter c 3) with
      | none => .error 3
      | some test =>
        match yesNo (s.cardParameter c 6) with
        | none => .error 6
        | some post =>
          if post ∧ 7 < (s.cardParameter c 7).toNat then .error 7
          else
            match yesNo (s.cardParameter c 8) with
            | none => .error 8
            | some sequence =>
              .ok
                { WatchRecord.start with
                  subject := subject, number := s.cardParameter c 2, test := test,
                  reference := s.cardParameter c 4, mask := s.cardParameter c 5, post := post,
                  actionCard := s.cardParameter c 7, sequence := sequence }

/-- The channel is armed in SEQUENCE mode. -/
def WatchRecord.inSequence (w : WatchRecord) : Bool := w.armed && w.sequence

/-- The channel belongs to a pair armed in SEQUENCE. -/
def State.pairArmed (s : State) (k : Fin 8) : Bool :=
  s.watch[channelA k].inSequence || s.watch[channelB k].inSequence

/-- Flags cleared, trip count 0, last result NOT MATCHING, armed yes. -/
def WatchRecord.freshlyArmed (w : WatchRecord) : WatchRecord :=
  { w with
    armed := true, lastMatching := false, matched := false, aSeen := false, overrun := false,
    tripCount := 0 }

/-- WATCH ARM on a channel: the outcome and detail of its card, with the state (R168, R169). -/
def armChannel (k : Fin 8) (fields : WatchRecord) (s : State) : (OrderOutcome × Nat) × State :=
  let last := s.watch[k].lastMatching
  if !fields.sequence then
    if s.pairArmed k then ((.busy, 0), s)
    else ((.ok, 0), watchEvent (setWatch k fields.freshlyArmed) (evaluateChannel k) s)
  else if isChannelA k then
    let b := channelB k
    if !s.watch[b].sequence then ((.wrongState, b.val), s)
    else
      ((.ok, 0),
        watchEvent
          (fun s => setWatch b s.watch[b].freshlyArmed (setWatch k fields.freshlyArmed s))
          (fun s => evaluateChannel b (evaluateChannel k s)) s)
  else if s.watch[k].inSequence then ((.busy, 0), s)
  else
    ((.ok, 0),
      watchEvent (setWatch k { fields with armed := false, lastMatching := last }) (fun s => s) s)

/-- One channel is disarmed (R170). -/
def disarmOne (k : Fin 8) (s : State) : State :=
  setWatch k { s.watch[k] with armed := false, aSeen := false } s

/-- WATCH DISARM: a pair armed in SEQUENCE is disarmed whole (R170; LOG 30). -/
def disarmChannel (k : Fin 8) (s : State) : State :=
  watchEvent
    (fun s => if s.pairArmed k then disarmOne (channelB k) (disarmOne (channelA k) s) else disarmOne k s)
    (fun s => s) s

/-- WATCH CLEAR (R171). -/
def clearChannel (k : Fin 8) (s : State) : State :=
  watchEvent
    (setWatch k { s.watch[k] with matched := false, aSeen := false, overrun := false }) (fun s => s) s

end Sys2Proof.Machine
end

