-- ==== Sys2Proof/Machine/Tables.lean ====
section
/-! DEFINITION. LOAD TABLE and START DECK: the reading and judging of a table, the cross-checks, the busy
conditions, and adoption (R25, R41, R58, R59, R102, R126, R188 to R192). -/

namespace Sys2Proof.Machine

/-! ### Judging fields (R189) -/

/-- A judging under way: the number of clamped fields so far, or the word offset of the first error. -/
abbrev Judging (α : Type) := Nat → Except Nat (α × Nat)

/-- A value judged with nothing clamped. -/
def Judging.value {α : Type} (x : α) : Judging α := fun clamped => .ok (x, clamped)

/-- Judge the next fields only if these pass. -/
def Judging.andThen {α β : Type} (x : Judging α) (f : α → Judging β) : Judging β := fun clamped =>
  match x clamped with
  | .ok (a, n) => f a n
  | .error offset => .error offset

/-- An error at a word of the entry. -/
def Judging.fail {α : Type} (offset : Nat) : Judging α := fun _ => .error offset

/-- A field that must hold what a reading of it answers. -/
def Judging.field {α : Type} (offset : Nat) (x : Option α) : Judging α :=
  match x with
  | some a => Judging.value a
  | none => Judging.fail offset

/-- A check of a field. -/
def Judging.check (offset : Nat) (holds : Bool) : Judging Unit :=
  if holds then Judging.value () else Judging.fail offset

/-- A field clamped into a range; a value outside it is counted (R191). -/
def Judging.clamp (low high : Nat) (w : Word) : Judging Nat := fun clamped =>
  let v := w.toNat
  if v < low then .ok (low, clamped + 1)
  else if high < v then .ok (high, clamped + 1)
  else .ok (v, clamped)

/-- Judge each element of a list in order. -/
def Judging.all {α β : Type} (f : α → Judging β) : List α → Judging (List β)
  | [] => Judging.value []
  | x :: rest =>
    Judging.andThen (f x) fun y => Judging.andThen (Judging.all f rest) fun ys => Judging.value (y :: ys)

/-- The words of a table as they stand: entry from 0, word offset. -/
abbrev TableWords := Nat → Nat → Word

/-- The words of a table at an address with an entry size. -/
def wordsAt (m : Memory) (base size : Nat) : TableWords := fun entry k => m.read (base + size * entry + k)

/-- A word that names a thing on deck, 1 to n. -/
def named (n : Nat) (w : Word) : Option (Fin n) := ofDeckNumber n w.toNat

/-- 0 for none, or a thing on deck. -/
def noneOrNamed (n : Nat) (w : Word) : Option (Option (Fin n)) :=
  if w = 0 then some none else (named n w).map some

/-- No earlier entry has the same word at an offset. -/
def firstWith (t : TableWords) (entry offset : Nat) : Bool :=
  (List.range entry).all fun k => t k offset != t entry offset

/-! ### The five tables -/

def StationKind.ofCode (w : Word) : Option StationKind :=
  [StationKind.none, .door, .ramp, .pack, .call, .sensor].find? fun k => k.code == w.toNat

/-- A station entry (R25). The confirm count of an entry of kind NONE, read and ignored, is held and shown as
1 (LOG 37). -/
def judgeStation (t : TableWords) (i : Fin 48) : Judging StationEntry :=
  Judging.andThen (Judging.field 0 (StationKind.ofCode (t i 0))) fun kind =>
  if kind = .none then Judging.value StationEntry.start
  else
    Judging.andThen (Judging.clamp 1 4 (t i 1)) fun confirmCount =>
    Judging.andThen (Judging.field 2 (yesNo (t i 2))) fun enabled =>
    Judging.value { kind := kind, confirmCount := confirmCount, enabledAtStart := enabled }

/-- A pack entry (R41). -/
def judgePackEntry (t : TableWords) (p : Fin 2) : Judging PackEntry :=
  Judging.andThen (Judging.field 0 (noneOrNamed 48 (t p 0))) fun station =>
  Judging.andThen (Judging.check 0 (station.isNone || firstWith t p 0)) fun _ =>
  Judging.andThen (Judging.clamp 2 30 (t p 1)) fun startLimit =>
  Judging.andThen (Judging.clamp 10 300 (t p 2)) fun parkHold =>
  Judging.andThen (Judging.clamp 1 4 (t p 3)) fun capacity =>
  Judging.value
    { station := station, startLimit := startLimit, parkHold := parkHold, capacity := capacity }

/-- The end condition of a stage record at word `w` (R59). -/
def judgeEnd (kind value : Word) (w travel : Nat) : Judging EndCondition :=
  if kind = 1 then
    Judging.andThen (Judging.clamp 1 65535 value) fun duration => Judging.value (.time duration)
  else if kind = 2 then
    Judging.andThen (Judging.check (w + 2) (decide (value.toNat ≤ travel))) fun _ =>
    Judging.value (.mark value.toNat)
  else if kind = 3 then
    if value = 1 then Judging.value (.switch false)
    else if value = 2 then Judging.value (.switch true)
    else Judging.fail (w + 2)
  else Judging.fail (w + 1)

/-- Stage record s of a ramp entry, s from 0 (R59). -/
def judgeStage (t : TableWords) (r : Fin 4) (travel : Nat) (stage : Fin 12) : Judging StageRecord :=
  let w := 16 + 8 * stage.val
  Judging.andThen (judgeEnd (t r (w + 1)) (t r (w + 2)) w travel) fun endCondition =>
  Judging.andThen (Judging.check (w + 3) (decide ((t r (w + 3)).toNat ≤ 12))) fun _ =>
  Judging.value
    { valves := (t r w).setWidth 8, endCondition := endCondition, next := (t r (w + 3)).toNat,
      limit := (t r (w + 4)).toNat, reseed := (t r (w + 5)).toNat }

/-- A list field: a count at a word, and that many different doors in the words after it. -/
def judgeDoorList (words : Nat → Word) (count limit : Nat) : Judging (List (Fin 32)) :=
  Judging.andThen (Judging.check count (decide ((words count).toNat ≤ limit))) fun _ =>
  Judging.all
    (fun k =>
      let offset := count + 1 + k
      Judging.andThen (Judging.field offset (named 32 (words offset))) fun d =>
      Judging.andThen
        (Judging.check offset ((List.range k).all fun j => words (count + 1 + j) != words offset))
        fun _ => Judging.value d)
    (List.range (words count).toNat)

/-- A program comes to a next stage of 0 within 12 stages (R59). -/
def programEnds (stages : Vector StageRecord 12) : Nat → Nat → Bool
  | _, 0 => true
  | 0, _ + 1 => false
  | fuel + 1, n + 1 =>
    match stages[n]? with
    | some st => programEnds stages fuel st.next
    | none => false

def StageRecord.blank : StageRecord := ⟨0, .time 1, 0, 0, 0⟩

/-- The fields of a fitted ramp's entry (R58, R59). -/
def judgeFittedRamp (t : TableWords) (r : Fin 4) (station : Fin 48) : Judging RampEntry :=
  Judging.andThen (Judging.field 1 (named 2 (t r 1))) fun pack =>
  Judging.andThen (Judging.field 2 (named 8 (t r 2))) fun zone =>
  let travel := (t r 3).toNat
  Judging.andThen (Judging.check 3 (decide (8 ≤ travel) && decide (travel ≤ 250))) fun _ =>
  Judging.andThen (Judging.check 4 (t r 4 != 0)) fun _ =>
  Judging.andThen (Judging.check 5 ([1, 2, 4, 8].contains (t r 5).toNat)) fun _ =>
  Judging.andThen (Judging.clamp 0 127 (t r 6)) fun lead =>
  Judging.andThen (Judging.clamp 0 127 (t r 7)) fun blank =>
  Judging.andThen (Judging.clamp 2 15 (t r 8)) fun multiple =>
  Judging.andThen (Judging.field 9 (yesNo (t r 9))) fun warn =>
  Judging.andThen (judgeDoorList (t r) 10 2) fun gates =>
  let lowerFirst := (t r 13).toNat
  let raiseFirst := (t r 14).toNat
  Judging.andThen (Judging.check 13 (decide (1 ≤ lowerFirst) && decide (lowerFirst ≤ 12))) fun _ =>
  Judging.andThen (Judging.check 14 (decide (1 ≤ raiseFirst) && decide (raiseFirst ≤ 12))) fun _ =>
  Judging.andThen (Judging.all (judgeStage t r travel) (List.finRange 12)) fun stages =>
  let stages := Vector.ofFn fun k : Fin 12 => stages.getD k.val StageRecord.blank
  Judging.andThen (Judging.check 13 (programEnds stages 12 lowerFirst)) fun _ =>
  Judging.andThen (Judging.check 14 (programEnds stages 12 raiseFirst)) fun _ =>
  Judging.value
    { station := station, pack := pack, zone := zone, travel := travel, nominal := (t r 4).toNat,
      depth := (t r 5).toNat, lead := lead, blank := blank, stallMultiple := multiple, warn := warn,
      gates := gates, lowerFirst := lowerFirst, raiseFirst := raiseFirst, stages := stages }

/-- A ramp entry (R58): station 0 is a ramp that is not fitted. -/
def judgeRamp (t : TableWords) (r : Fin 4) : Judging (Option RampEntry) :=
  Judging.andThen (Judging.field 0 (noneOrNamed 48 (t r 0))) fun station =>
  match station with
  | none => Judging.value none
  | some i =>
    Judging.andThen (Judging.check 0 (firstWith t r 0)) fun _ =>
    Judging.andThen (judgeFittedRamp t r i) fun e => Judging.value (some e)

/-- No earlier fitted door sits on the same station and point (R102). -/
def freePoint (t : TableWords) (d : Nat) : Bool :=
  (List.range d).all fun k => t k 0 == 0 || t k 1 != t d 1 || t k 2 != t d 2

/-- The kind of a fitted door from its code, with its pack and ramp (R102). -/
def judgeDoorKind (t : TableWords) (d : Fin 32) : Judging DoorKind :=
  if t d 0 = 1 then Judging.value .springFire
  else
    Judging.andThen (Judging.field 4 (named 2 (t d 4))) fun pack =>
    if t d 0 = 2 then Judging.value (.hydraulicFire pack)
    else
      Judging.andThen (Judging.field 5 (named 4 (t d 5))) fun ramp => Judging.value (.gate pack ramp)

/-- A field that only hydraulic doors use: clamped for them, else ignored (R102). -/
def hydraulicOnly (k : DoorKind) (low high : Nat) (w : Word) : Judging Nat :=
  if k.isHydraulic then Judging.clamp low high w else Judging.value 0

/-- A door entry (R102). -/
def judgeDoor (t : TableWords) (d : Fin 32) : Judging (Option DoorEntry) :=
  Judging.andThen (Judging.check 0 (decide ((t d 0).toNat ≤ 3))) fun _ =>
  if t d 0 = 0 then Judging.value none
  else
    Judging.andThen (Judging.field 1 (named 48 (t d 1))) fun station =>
    Judging.andThen (Judging.field 2 (named 4 (t d 2))) fun point =>
    Judging.andThen (Judging.check 2 (freePoint t d)) fun _ =>
    Judging.andThen (Judging.field 3 (named 8 (t d 3))) fun zone =>
    Judging.andThen (judgeDoorKind t d) fun kind =>
    Judging.andThen (Judging.clamp 0 30 (t d 6)) fun warnTime =>
    Judging.andThen (Judging.clamp 1 120 (t d 7)) fun closeLimit =>
    Judging.andThen (Judging.clamp 1 120 (t d 8)) fun openLimit =>
    Judging.andThen (hydraulicOnly kind 0 7 (t d 9)) fun retryLimit =>
    Judging.andThen (hydraulicOnly kind 1 30 (t d 10)) fun retryDelay =>
    Judging.value
      (some
        { kind := kind, station := station, point := point, zone := zone, warnTime := warnTime,
          closeLimit := closeLimit, openLimit := openLimit, retryLimit := retryLimit,
          retryDelay := retryDelay })

/-- Sensor point k of a zone entry, k from 0; the second must differ from the first (R126; LOG 19). -/
def judgePoint (t : TableWords) (z : Fin 8) (k : Nat) : Judging (Fin 48 × Fin 4) :=
  let w := 1 + 2 * k
  Judging.andThen (Judging.field w (named 48 (t z w))) fun station =>
  Judging.andThen (Judging.field (w + 1) (named 4 (t z (w + 1)))) fun point =>
  Judging.andThen
    (Judging.check (w + 1) (k == 0 || t z 1 != t z w || t z 2 != t z (w + 1))) fun _ =>
  Judging.value (station, point)

/-- A zone entry (R126). -/
def judgeZone (t : TableWords) (z : Fin 8) : Judging ZoneEntry :=
  Judging.andThen (Judging.check 0 (decide ((t z 0).toNat ≤ 2))) fun _ =>
  Judging.andThen (Judging.all (judgePoint t z) (List.range (t z 0).toNat)) fun points =>
  Judging.andThen (Judging.field 5 (noneOrNamed 48 (t z 5))) fun callStation =>
  Judging.andThen (Judging.check 5 (callStation.isNone || firstWith t z 5)) fun _ =>
  Judging.andThen (judgeDoorList (t z) 6 8) fun closeOrder =>
  Judging.andThen (Judging.field 15 (yesNo (t z 15))) fun autoSeal =>
  Judging.andThen (Judging.clamp 0 60 (t z 16)) fun confirmTime =>
  Judging.andThen (Judging.check 17 (decide ((t z 17).toNat ≤ 255))) fun _ =>
  Judging.andThen (Judging.clamp 1 8 (t z 18)) fun repeats =>
  Judging.andThen (Judging.clamp 0 10 (t z 19)) fun stagger =>
  Judging.value
    { points := points, callStation := callStation, closeOrder := closeOrder, autoSeal := autoSeal,
      confirmTime := confirmTime, clip := (t z 17).toNat, repeats := repeats, stagger := stagger }

/-! ### A whole table -/

/-- Codes of the tables (11.1). -/
def TableName.code : TableName → Nat
  | .stations => 1
  | .packs => 2
  | .ramps => 3
  | .doors => 4
  | .zones => 5

/-- The tables in ascending code. -/
def TableName.all : List TableName := [.stations, .packs, .ramps, .doors, .zones]

/-- The table a LOAD TABLE target names. -/
def TableName.ofCode (n : Nat) : Option TableName := TableName.all.find? fun t => t.code == n

/-- The detail of TABLE ERROR: table code, entry number on deck, word offset (R189). -/
def tableErrorDetail (t : TableName) (entry offset : Nat) : Nat := t.code * 8192 + entry * 128 + offset

/-- Judge the entries of a table in ascending number; an error becomes the detail of TABLE ERROR. -/
def judgeEntries {n : Nat} {α : Type} (name : TableName) (f : Fin n → Judging α) (blank : α) :
    Except Nat (Vector α n × Nat) :=
  let run := Judging.all (fun (i : Fin n) clamped =>
    match f i clamped with
    | .ok x => .ok x
    | .error offset => .error (tableErrorDetail name (deckNumber i) offset)) (List.finRange n)
  match run 0 with
  | .ok (l, clamped) => .ok (Vector.ofFn fun i : Fin n => l.getD i.val blank, clamped)
  | .error detail => .error detail

/-- The adopted copies with one table replaced by the table read, and the number of clamped fields; or the
detail of the first error (R189). -/
def judgeTable (name : TableName) (m : Memory) (t : Tables) : Except Nat (Tables × Nat) :=
  match name with
  | .stations =>
    match judgeEntries name (judgeStation (wordsAt m Config.stationTableBase 8)) StationEntry.start with
    | .ok (v, n) => .ok ({ t with stations := v }, n)
    | .error d => .error d
  | .packs =>
    match judgeEntries name (judgePackEntry (wordsAt m Config.packTableBase 8)) PackEntry.start with
    | .ok (v, n) => .ok ({ t with packs := v }, n)
    | .error d => .error d
  | .ramps =>
    match judgeEntries name (judgeRamp (wordsAt m Config.rampTableBase 128)) none with
    | .ok (v, n) => .ok ({ t with ramps := v }, n)
    | .error d => .error d
  | .doors =>
    match judgeEntries name (judgeDoor (wordsAt m Config.doorTableBase 16)) none with
    | .ok (v, n) => .ok ({ t with doors := v }, n)
    | .error d => .error d
  | .zones =>
    match judgeEntries name (judgeZone (wordsAt m Config.zoneTableBase 24)) ZoneEntry.start with
    | .ok (v, n) => .ok ({ t with zones := v }, n)
    | .error d => .error d

/-! ### Cross-checks (R190) -/

/-- A reference of a table into another, with whether it holds. -/
structure Reference where
  table : TableName
  entry : Nat
  offset : Nat
  into : TableName
  holds : Bool
deriving DecidableEq, Repr

/-- The pack is fitted. -/
def Tables.packFitted (t : Tables) (p : Fin 2) : Bool := t.packs[p].station.isSome

/-- The station's kind. -/
def Tables.hasKind (t : Tables) (i : Fin 48) (k : StationKind) : Bool := t.stations[i].kind == k

/-- The door is a GATE of the ramp. -/
def Tables.isGateOf (t : Tables) (d : Fin 32) (r : Fin 4) : Bool :=
  match t.doors[d] with
  | some e => e.kind.ramp? == some r
  | none => false

/-- The ramp is fitted and its gate door list holds the door. -/
def Tables.hasGate (t : Tables) (r : Fin 4) (d : Fin 32) : Bool :=
  match t.ramps[r] with
  | some e => e.gates.contains d
  | none => false

/-- The door is fitted and lies in the zone. -/
def Tables.inZone (t : Tables) (d : Fin 32) (z : Fin 8) : Bool :=
  match t.doors[d] with
  | some e => e.zone == z
  | none => false

/-- The references of a pack entry (R41). -/
def packReferences (t : Tables) (p : Fin 2) : List Reference :=
  match t.packs[p].station with
  | some i => [⟨.packs, deckNumber p, 0, .stations, t.hasKind i .pack⟩]
  | none => []

/-- The references of a ramp entry (R58). -/
def rampReferences (t : Tables) (r : Fin 4) : List Reference :=
  match t.ramps[r] with
  | some e =>
    [⟨.ramps, deckNumber r, 0, .stations, t.hasKind e.station .ramp⟩,
      ⟨.ramps, deckNumber r, 1, .packs, t.packFitted e.pack⟩] ++
    e.gates.zipIdx.map fun x => ⟨.ramps, deckNumber r, 11 + x.2, .doors, t.isGateOf x.1 r⟩
  | none => []

/-- The references of a door entry (R102). -/
def doorReferences (t : Tables) (d : Fin 32) : List Reference :=
  match t.doors[d] with
  | some e =>
    let station : Reference := ⟨.doors, deckNumber d, 1, .stations, t.hasKind e.station .door⟩
    let pack (p : Fin 2) : Reference := ⟨.doors, deckNumber d, 4, .packs, t.packFitted p⟩
    match e.kind with
    | .springFire => [station]
    | .hydraulicFire p => [station, pack p]
    | .gate p r => [station, pack p, ⟨.doors, deckNumber d, 5, .ramps, t.hasGate r d⟩]
  | none => []

/-- The references of a zone entry (R126). -/
def zoneReferences (t : Tables) (z : Fin 8) : List Reference :=
  let e := t.zones[z]
  (e.points.zipIdx.map fun x =>
    ⟨.zones, deckNumber z, 1 + 2 * x.2, .stations, t.hasKind x.1.1 .sensor⟩) ++
  (match e.callStation with
    | some i => [⟨.zones, deckNumber z, 5, .stations, t.hasKind i .call⟩]
    | none => []) ++
  e.closeOrder.zipIdx.map fun x => ⟨.zones, deckNumber z, 7 + x.2, .doors, t.inZone x.1 z⟩

/-- The references a table makes, in the order of R189. -/
def references (t : Tables) (name : TableName) : List Reference :=
  match name with
  | .stations => []
  | .packs => (List.finRange 2).flatMap (packReferences t)
  | .ramps => (List.finRange 4).flatMap (rampReferences t)
  | .doors => (List.finRange 32).flatMap (doorReferences t)
  | .zones => (List.finRange 8).flatMap (zoneReferences t)

/-- The table is in the adopted set. -/
def Tables.has (t : Tables) (name : TableName) : Bool := t.adopted.getLsbD (name.code - 1)

/-- The detail a failing reference is reported with. -/
def Reference.detail (r : Reference) : Nat := tableErrorDetail r.table r.entry r.offset

/-- The first reference that fails when a table is loaded: forward into the adopted set, then reverse from
it, ascending (R190). `t` holds the new table and the adopted set as it was. -/
def crossCheck (name : TableName) (t : Tables) : Option Nat :=
  let forward := (references t name).filter fun r => t.has r.into
  let reverse := (TableName.all.filter fun other => other != name && t.has other).flatMap fun other =>
    (references t other).filter fun r => r.into == name
  ((forward ++ reverse).find? fun r => !r.holds).map Reference.detail

/-- The first reference that fails across all five tables (R192). -/
def crossCheckAll (t : Tables) : Option Nat :=
  ((TableName.all.flatMap (references t)).find? fun r => !r.holds).map Reference.detail

/-! ### Busy conditions (R188) -/

/-- A ramp is MOVING or HELD. -/
def State.rampBusy (s : State) : Bool := s.ramps.any fun r => r.state == .moving || r.state == .held

/-- A door is in a moving state. -/
def State.doorBusy (s : State) : Bool := s.doors.any fun r => r.state.isMovingState

/-- A pack has a holder. -/
def State.packBusy (s : State) : Bool := s.packs.any fun r => r.holder.isSome

/-- The deck is too busy for the table to be replaced (R188). -/
def loadBusy (name : TableName) (s : State) : Bool :=
  match name with
  | .stations =>
    s.part == .running &&
      (s.rampBusy || s.doorBusy || (s.slots.any fun r => r.state == .playing) || s.packBusy)
  | .packs => s.packBusy
  | .ramps => s.rampBusy
  | .doors => s.doorBusy || s.zones.any fun r => r.state == .sealing
  | .zones => s.zones.any fun r => r.state != .clear

/-- How a LOAD TABLE comes out: refused with an outcome and detail, or the tables to adopt and the number
of clamped fields (R188 to R191). -/
def judgeLoad (name : TableName) (s : State) : Except (OrderOutcome × Nat) (Tables × Nat) :=
  if loadBusy name s then .error (.busy, 0)
  else
    match judgeTable name s.mem s.tables with
    | .error detail => .error (.tableError, detail)
    | .ok (t, clamped) =>
      match crossCheck name t with
      | some detail => .error (.tableError, detail)
      | none =>
        .ok ({ t with adopted := t.adopted ||| BitVec.twoPow 5 (name.code - 1) }, clamped)

/-! ### Adoption (R191) -/

/-- Adopt tables of which one is new: the records of the objects it describes are judged afresh (R191). -/
def adoptTable (name : TableName) (t : Tables) (s : State) : State :=
  let before := s.tables
  let s := noteChanged ((List.finRange 48).map .station ++ (List.finRange 32).map .door) s
    { s with tables := t }
  match name with
  | .stations =>
    let s := recomposeAll (adoptStations (lineAdoptStations s))
    rejudgePoints (adoptDoors (adoptRamps (forEach 2 judgePackStation s)))
  | .packs => recomposeAll (adoptPacks before s)
  | .ramps => recomposeAll (adoptRamps s)
  | .doors => recomposeAll (adoptDoors s)
  | .zones => recomposeAll (callAdoptZones before (adoptZones true s))

/-- The records every one of which is rewritten at an adoption (R40, R57, R86, R125, R144). The adoption of a
station table is an event of R128 too: every zone record is rewritten (LOG 33). -/
def adoptionRewrites (name : TableName) (id : RecordId) : Bool :=
  match name, id with
  | .stations, .station _ | .stations, .ramp _ | .stations, .door _ | .stations, .zone _ => true
  | .packs, .pack _ | .ramps, .ramp _ | .doors, .door _ | .zones, .zone _ => true
  | _, _ => false

/-! ### START DECK (R192) -/

/-- START DECK is judged: the outcome and detail of its refusal, or `none`. -/
def judgeStartDeck (s : State) : Option (OrderOutcome × Nat) :=
  if s.part = .running then some (.wrongState, 0)
  else
    match TableName.all.find? fun t => !s.tables.has t with
    | some t => some (.notConfigured, t.code)
    | none => (crossCheckAll s.tables).map fun detail => (.tableError, detail)

/-- The line controller leaves STOPPED (R23). -/
def startLine (s : State) : State := setLine { s.line with mode := .idle } s

/-- The part enters RUNNING (R192). Hand-overs in flight fall (LOG 25). -/
def enterRunning (s : State) : State :=
  let s := noteChanged ((List.finRange 8).map .zone) s
    { s with part := .running, handovers := [], zones := Vector.replicate 8 ZoneRecord.start }
  let s := adoptDoors (adoptRamps (startPacks (resetCalls (startLine s))))
  recomposeAll (adoptZones false s)

/-- The records every one of which is rewritten at entry to RUNNING (R57, R86, R125, R144, R161). -/
def startRewrites (id : RecordId) : Bool :=
  match id with
  | .pack _ | .ramp _ | .door _ | .zone _ | .slot _ => true
  | .station _ | .watch _ => false

end Sys2Proof.Machine
end

