-- ==== Sys2Proof/Machine/Takings.lean ====
section
/-! DEFINITION. The taking of a card by the order unit and the checks made before its owner judges it
(R181, R182); the parameters of CALL (R147) and the owners a CANCEL finds (R185). -/

namespace Sys2Proof.Machine

/-- The card at the head of the intake list, in a part state that takes cards (R182). -/
def State.headCard (s : State) : Option CardId :=
  if s.part = .starting then none else s.cards.intake.head?

/-- The head of the intake list, if it carries an order of a kind. -/
def State.headOrder (s : State) (k : OrderKind) : Option CardId :=
  match s.headCard with
  | some c => if s.cardKind c = some k then some c else none
  | none => none

/-- Priorities by code (12, Cards). -/
def Priority.ofCode (w : Word) : Option Priority :=
  [Priority.routine, .boarding, .safety, .emergency].find? fun p => p.rank == w.toNat

/-- A parameter clamped into a range (R147). -/
def clampNat (low high n : Nat) : Nat := max low (min high n)

/-- The call a CALL card places, or the first parameter that fails (R147). -/
def callParameters (s : State) (c : CardId) : Except Nat SlotRecord :=
  let clip := s.cardParameter c 1
  let zones := s.cardParameter c 2
  if clip = 0 ∨ 255 < clip.toNat then .error 1
  else if zones = 0 ∨ 255 < zones.toNat then .error 2
  else
    match Priority.ofCode (s.cardParameter c 3) with
    | none => .error 3
    | some priority =>
      match yesNo (s.cardParameter c 6) with
      | none => .error 6
      | some chime =>
        match yesNo (s.cardParameter c 7) with
        | none => .error 7
        | some resumeOnCut =>
          .ok
            { SlotRecord.start with
              origin := .card c, card := some c, clip := clip.setWidth 8, zones := zones.setWidth 8,
              priority := priority, repeats := clampNat 1 8 (s.cardParameter c 4).toNat,
              gap := clampNat 0 10 (s.cardParameter c 5).toNat, chime := chime,
              resumeOnCut := resumeOnCut }

/-- The first parameter of a card that fails the checks stated with its order (R182). -/
def failingParameter (k : OrderKind) (c : CardId) (s : State) : Option Nat :=
  match k with
  | .call =>
    match callParameters s c with
    | .error n => some n
    | .ok _ => none
  | .watchArm =>
    match armFields s c with
    | .error n => some n
    | .ok _ => none
  | _ => none

/-- The target lies in the range of the kind, and a CANCEL does not name its own card (R182). -/
def targetAllowed (k : OrderKind) (c : CardId) (target : Nat) : Bool :=
  decide (k.targets.1 ≤ target) && decide (target ≤ k.targets.2) && !(k == .cancel && target == c.val)

/-- Checks 2 to 4 of a taking: the refusal of the first that fails (R182). -/
def refuseAtTaking (k : OrderKind) (c : CardId) (s : State) : Option (OrderOutcome × Nat) :=
  if !targetAllowed k c (s.cardTarget c) then some (.badTarget, s.cardTarget c)
  else
    match failingParameter k c s with
    | some n => some (.badValue, n)
    | none => if s.part ≠ .running ∧ k.takenUnconfigured = false then some (.notConfigured, 0) else none

/-- The head of the intake list is taken: it leaves the list and becomes TAKEN (R182). -/
def takeHead (c : CardId) (s : State) : State := setCardState c .taken (removeIntake c s)

/-- The taking of an order of a kind: it is taken only when it stands at the head of the intake list
(LOG 4). `owner` is handed a card that passes the checks. -/
def takeOrder (k : OrderKind) (owner : CardId → State → State) (s : State) : State :=
  match s.headOrder k with
  | some c =>
    match refuseAtTaking k c s with
    | some (o, detail) => endCard c o detail (takeHead c s)
    | none => owner c (takeHead c s)
  | none => s

/-- Hand a card to its owner with its target, a thing on deck. -/
def withTarget (n : Nat) (owner : Fin n → CardId → State → State) (c : CardId) (s : State) : State :=
  match ofDeckNumber n (s.cardTarget c) with
  | some i => owner i c s
  | none => s

/-- Hand a card to its owner with its target, a slot or channel from 0. -/
def withSlot (n : Nat) (owner : Fin n → CardId → State → State) (c : CardId) (s : State) : State :=
  match ofSlotNumber n (s.cardTarget c) with
  | some i => owner i c s
  | none => s

/-- A call ends by CALL STOP or CANCEL, with STOP on each of its channels (R158). -/
def cancelCall (i : Fin 16) (s : State) : State :=
  startTest (endCall i .cancelled s.slots[i].repeatsDone (stopCall i s))

/-- What owns a card in flight (R185). -/
inductive CardOwner where
  | ramp (r : Fin 4)
  | door (d : Fin 32)
  | zone (z : Fin 8)
  | call (i : Fin 16)
deriving DecidableEq, Repr

/-- The owner of a TAKEN card. -/
def State.ownerOf (s : State) (c : CardId) : Option CardOwner :=
  match (List.finRange 4).find? fun r => s.ramps[r].card == some c with
  | some r => some (.ramp r)
  | none =>
    match (List.finRange 32).find? fun d => s.doors[d].card == some c with
    | some d => some (.door d)
    | none =>
      match (List.finRange 8).find? fun z => s.zones[z].card == some c with
      | some z => some (.zone z)
      | none =>
        match (List.finRange 16).find? fun i => s.slots[i].card == some c with
        | some i => some (.call i)
        | none => none

/-- The owner ends the card of an order in flight (R71, R117, R141, R158). -/
def cancelOwner (o : CardOwner) (s : State) : State :=
  match o with
  | .ramp r => holdRamp r .cancel s
  | .door d => cancelDoor d s
  | .zone z => cancelZone z s
  | .call i => cancelCall i s

/-- A CANCEL card with its target card (R185; LOG 31). -/
def cancelCard (t : Fin 32) (c : CardId) (s : State) : State :=
  let target := boardCard t
  match s.cardState target with
  | .posted => endCard c .ok 0 (endCardAs target .cancelled 0 .refused (removeIntake target s))
  | .taken =>
    match s.ownerOf target with
    | some o => endCard c .ok 0 (cancelOwner o s)
    | none => endCard c .wrongState 0 s
  | .free | .done | .refused => endCard c .wrongState 0 s

/-- A card refused by its owner, or handed on (R182). -/
def refuseOr (verdict : Option (OrderOutcome × Nat)) (accept : State → State) (c : CardId) (s : State) :
    State :=
  match verdict with
  | some (o, detail) => endCard c o detail s
  | none => accept s

end Sys2Proof.Machine
end

