-- ==== Sys2Proof/Machine/Orders.lean ====
section
/-! DEFINITION. The takings of the order cards, one command for each order kind (10_order_board_and_port.md
and the owners' chapters). -/

namespace Sys2Proof.Machine

/-- A command that changes records is one event, at whose end the idle line chooses (R20; LOG 9, LOG 11). -/
def commandEvent (forced : RecordId → Bool) (act : State → State) : State → State :=
  asEvent forced fun s => chooseTransaction (act s)

/-- A command that rewrites the records it changes. -/
def event (act : State → State) (s : State) : Host.Outcome State Fault Refusal :=
  .next (commandEvent onChange act s)

/-- The taking of an order. -/
def taking (k : OrderKind) (owner : CardId → State → State) (s : State) :
    Host.Outcome State Fault Refusal :=
  event (takeOrder k owner) s

/-! ### The order unit's own orders -/

/-- A card whose kind code is no order kind is refused BAD KIND, with the code as the detail (R182). -/
def takeUnknown (s : State) : State :=
  match s.headCard with
  | some c =>
    if s.cardKind c = none then endCard c .badKind (s.cardWord c 1).toNat (takeHead c s) else s
  | none => s

/-- UNKNOWN_ORDER_KIND (R182). -/
def execUnknownOrderKind (s : State) : Host.Outcome State Fault Refusal := event takeUnknown s

/-- The table the card at the head of the intake list would load. -/
def State.tableToLoad (s : State) : Option TableName :=
  match s.headOrder .loadTable with
  | some c => TableName.ofCode (s.cardTarget c)
  | none => none

/-- LOAD TABLE on a card (R188 to R191). -/
def loadTable (c : CardId) (s : State) : State :=
  match TableName.ofCode (s.cardTarget c) with
  | some name =>
    match judgeLoad name s with
    | .error (o, detail) => endCard c o detail s
    | .ok (t, clamped) => endCard c .ok clamped (adoptTable name t s)
  | none => s

/-- The records LOAD TABLE rewrites whether they change or not: those of an adoption. -/
def loadRewrites (s : State) : RecordId → Bool :=
  match s.tableToLoad with
  | some name =>
    match judgeLoad name s with
    | .ok _ => adoptionRewrites name
    | .error _ => onChange
  | none => onChange

/-- LOAD_TABLE (R188). -/
def execLoadTable (s : State) : Host.Outcome State Fault Refusal :=
  .next (commandEvent (loadRewrites s) (takeOrder .loadTable loadTable) s)

/-- START DECK on a card (R192). -/
def startDeck (c : CardId) (s : State) : State :=
  refuseOr (judgeStartDeck s) (fun s => endCard c .ok 0 (enterRunning s)) c s

/-- The records START DECK rewrites whether they change or not: those of an entry to RUNNING. -/
def startDeckRewrites (s : State) : RecordId → Bool :=
  match s.headOrder .startDeck with
  | some c =>
    if (refuseAtTaking .startDeck c s).isNone && (judgeStartDeck s).isNone then startRewrites
    else onChange
  | none => onChange

/-- START_DECK (R192). -/
def execStartDeck (s : State) : Host.Outcome State Fault Refusal :=
  .next (commandEvent (startDeckRewrites s) (takeOrder .startDeck startDeck) s)

/-- CANCEL (R185). -/
def execCancel (s : State) : Host.Outcome State Fault Refusal :=
  taking .cancel (withSlot 32 cancelCard) s

/-! ### Stations -/

/-- A station order: a kind of NONE is refused BAD TARGET (2.9). -/
def stationOrder (act : Fin 48 → State → State) (i : Fin 48) (c : CardId) (s : State) : State :=
  if s.stationKind i = .none then endCard c .badTarget 0 s else endCard c .ok 0 (act i s)

/-- STATION_ENABLE (R39). -/
def execStationEnable (s : State) : Host.Outcome State Fault Refusal :=
  taking .stationEnable (withTarget 48 (stationOrder enableStation)) s

/-- STATION_DISABLE (R38). -/
def execStationDisable (s : State) : Host.Outcome State Fault Refusal :=
  taking .stationDisable (withTarget 48 (stationOrder disableStation)) s

/-! ### Ramps -/

/-- RAMP LOWER or RAMP RAISE on a card (R65, R66). -/
def rampProgramOrder (program : Program) (r : Fin 4) (c : CardId) (s : State) : State :=
  refuseOr (judgeProgram r program s) (startProgram r program c) c s

/-- RAMP_LOWER (R65). -/
def execRampLower (s : State) : Host.Outcome State Fault Refusal :=
  taking .rampLower (withTarget 4 (rampProgramOrder .lower)) s

/-- RAMP_RAISE (R65). -/
def execRampRaise (s : State) : Host.Outcome State Fault Refusal :=
  taking .rampRaise (withTarget 4 (rampProgramOrder .raise)) s

/-- RAMP HOLD on a card (R68). -/
def rampHoldOrder (r : Fin 4) (c : CardId) (s : State) : State :=
  match s.rampEntry r with
  | none => endCard c .badTarget 0 s
  | some _ =>
    if s.ramps[r].state = .moving then
      endCard c .ok s.ramps[r].programStage (holdRamp r .order s)
    else endCard c .wrongState 0 s

/-- RAMP_HOLD (R68). -/
def execRampHold (s : State) : Host.Outcome State Fault Refusal :=
  taking .rampHold (withTarget 4 rampHoldOrder) s

/-- RAMP RESUME on a card (R69). -/
def rampResumeOrder (r : Fin 4) (c : CardId) (s : State) : State :=
  refuseOr (judgeResume r s) (resumeProgram r c) c s

/-- RAMP_RESUME (R69). -/
def execRampResume (s : State) : Host.Outcome State Fault Refusal :=
  taking .rampResume (withTarget 4 rampResumeOrder) s

/-- RAMP CLEAR on a card (R70). -/
def rampClearOrder (r : Fin 4) (c : CardId) (s : State) : State :=
  match judgeRampClear r s with
  | (.ok, detail) => endCard c .ok detail (clearRamp r s)
  | (o, detail) => endCard c o detail s

/-- RAMP_CLEAR (R70). -/
def execRampClear (s : State) : Host.Outcome State Fault Refusal :=
  taking .rampClear (withTarget 4 rampClearOrder) s

/-! ### Doors -/

/-- DOOR CLOSE on a card (R116). -/
def doorCloseOrder (d : Fin 32) (c : CardId) (s : State) : State :=
  refuseOr (judgeDoorClose d s) (startDoorClose d c) c s

/-- DOOR_CLOSE (R116). -/
def execDoorClose (s : State) : Host.Outcome State Fault Refusal :=
  taking .doorClose (withTarget 32 doorCloseOrder) s

/-- DOOR OPEN on a card (R114). -/
def doorOpenOrder (d : Fin 32) (c : CardId) (s : State) : State :=
  refuseOr (judgeDoorOpen d s) (startDoorOpen d c) c s

/-- DOOR_OPEN (R114). -/
def execDoorOpen (s : State) : Host.Outcome State Fault Refusal :=
  taking .doorOpen (withTarget 32 doorOpenOrder) s

/-- DOOR CLEAR on a card (R121). -/
def doorClearOrder (d : Fin 32) (c : CardId) (s : State) : State :=
  match s.doorEntry d with
  | none => endCard c .badTarget 0 s
  | some _ =>
    if s.doors[d].state = .failed then endCard c .ok 0 (clearDoor d s)
    else endCard c .wrongState 0 s

/-- DOOR_CLEAR (R121). -/
def execDoorClear (s : State) : Host.Outcome State Fault Refusal :=
  taking .doorClear (withTarget 32 doorClearOrder) s

/-! ### Zones -/

/-- ZONE ALERT on a card (R138). -/
def zoneAlertOrder (z : Fin 8) (c : CardId) (s : State) : State :=
  match s.zones[z].state with
  | .clear => endCard c .ok 0 (enterAlert z s)
  | .alert => endCard c .ok 0 s
  | .sealing | .sealed | .impaired => endCard c .wrongState 0 s

/-- ZONE_ALERT (R138). -/
def execZoneAlert (s : State) : Host.Outcome State Fault Refusal :=
  taking .zoneAlert (withTarget 8 zoneAlertOrder) s

/-- ZONE SEAL on a card (R139). -/
def zoneSealOrder (z : Fin 8) (c : CardId) (s : State) : State :=
  match s.zones[z].state with
  | .clear | .alert => enterSealing z (cardSealCause c) (some c) s
  | .sealing | .sealed | .impaired => endCard c .ok 0 s

/-- ZONE_SEAL (R139). -/
def execZoneSeal (s : State) : Host.Outcome State Fault Refusal :=
  taking .zoneSeal (withTarget 8 zoneSealOrder) s

/-- ZONE RELEASE on a card (R142). -/
def zoneReleaseOrder (z : Fin 8) (c : CardId) (s : State) : State :=
  let r := s.zones[z]
  if r.alarm then endCard c .interlock (if r.points.any (·.active) then 1 else 2) s
  else
    match r.state with
    | .clear => endCard c .ok 0 s
    | .alert => endCard c .ok 0 (releaseAlert z s)
    | .sealing | .sealed | .impaired => endCard c .ok 0 (releaseSealed z s)

/-- ZONE_RELEASE (R142). -/
def execZoneRelease (s : State) : Host.Outcome State Fault Refusal :=
  taking .zoneRelease (withTarget 8 zoneReleaseOrder) s

/-! ### Calls -/

/-- CALL on a card whose parameters pass: barring, merging, the taking of a slot (R147 to R150). -/
def callOrder (c : CardId) (s : State) : State :=
  match callParameters s c with
  | .error _ => s
  | .ok call =>
    let zones := s.allowedZones call.priority call.zones
    if zones = 0 then endCard c .interlock 2 s
    else
      match enterCall { call with zones := zones } s with
      | (.merged i, s) => startTest (endCard c .ok i.val s)
      | (.taken, s) => startTest s
      | (.busy, s) => endCard c .busy 0 s

/-- CALL (R147). -/
def execCall (s : State) : Host.Outcome State Fault Refusal := taking .call callOrder s

/-- CALL STOP on a card (R158). -/
def callStopOrder (i : Fin 16) (c : CardId) (s : State) : State :=
  if s.slots[i].state = .free then endCard c .wrongState 0 s else endCard c .ok 0 (cancelCall i s)

/-- CALL_STOP (R158). -/
def execCallStop (s : State) : Host.Outcome State Fault Refusal :=
  taking .callStop (withSlot 16 callStopOrder) s

/-! ### Watch channels -/

/-- WATCH ARM on a card whose parameters pass (R168, R169). The arming and its trips come before the end of the
card: a trip that posts the card of the order itself finds it TAKEN and sets overrun, the model's choice
(LOG 54). -/
def watchArmOrder (k : Fin 8) (c : CardId) (s : State) : State :=
  match armFields s c with
  | .error _ => s
  | .ok fields =>
    let r := armChannel k fields s
    endCard c r.1.1 r.1.2 r.2

/-- WATCH_ARM (R168). -/
def execWatchArm (s : State) : Host.Outcome State Fault Refusal :=
  taking .watchArm (withSlot 8 watchArmOrder) s

/-- A quick watch order that is always accepted (R170, R171). -/
def watchOrder (act : Fin 8 → State → State) (k : Fin 8) (c : CardId) (s : State) : State :=
  endCard c .ok 0 (act k s)

/-- WATCH_DISARM (R170). -/
def execWatchDisarm (s : State) : Host.Outcome State Fault Refusal :=
  taking .watchDisarm (withSlot 8 (watchOrder disarmChannel)) s

/-- WATCH_CLEAR (R171). -/
def execWatchClear (s : State) : Host.Outcome State Fault Refusal :=
  taking .watchClear (withSlot 8 (watchOrder clearChannel)) s

end Sys2Proof.Machine
end

