-- ==== Sys2Proof/Machine/Port.lean ====
section
/-! DEFINITION. The port's commands: reset, restart, register writes, host writes, posts and withdrawals
(R173 to R180, R187, R193, R194). -/

namespace Sys2Proof.Machine

/-! ### Host writes (R177 to R180) -/

/-- A discarded host write (R179). -/
def discardWrite (a : Nat) (cause : MisuseCause) (s : State) : State :=
  raiseFlag .misuse { s with misuse := ⟨wordOf a, cause⟩ }

/-- A write to a card's state word (R178, R180). -/
def writeStateWord (c : CardId) (value : Word) (s : State) : State :=
  let discard := discardWrite (cardAddress c 0) .state s
  match s.cardState c with
  | .free => if value = 1 ∧ isBoardCard c = true then appendIntake c (setCardState c .posted s) else discard
  | .posted =>
    if value = 0 ∧ isBoardCard c = true then setCardState c .free (removeIntake c s) else discard
  | .done | .refused => if value = 0 then setCardState c .free s else discard
  | .taken => discard

/-- A host write to exchange memory, judged by its area (R173, R177, R178, R196). -/
def hostWrite (a : Nat) (value : Word) (s : State) : State :=
  if s.part = .starting then s
  else if a < Config.cardBase then discardWrite a .partArea s
  else
    match cardAt a with
    | some (c, 0) => writeStateWord c value s
    | some (c, _) =>
      if s.cardState c = .taken then discardWrite a .takenCard s else writeWord a value s
    | none =>
      if Config.imageBase ≤ a ∧ a < Config.imageLimit then discardWrite a .partArea s
      else writeWord a value s

/-- HOST_WRITE (R177). -/
def execHostWrite (address : BitVec 14) (value : Word) (s : State) :
    Host.Outcome State Fault Refusal :=
  .next (hostWrite address.toNat value s)

/-- POST: POSTED written to the state word of a board card (R180). -/
def execPost (card : Fin 32) (s : State) : Host.Outcome State Fault Refusal :=
  .next (hostWrite (cardAddress (boardCard card) 0) 1 s)

/-- WITHDRAWAL: FREE written to the state word of a board card (R180). -/
def execWithdrawal (card : Fin 32) (s : State) : Host.Outcome State Fault Refusal :=
  .next (hostWrite (cardAddress (boardCard card) 0) 0 s)

/-! ### Port registers (R174, R175) -/

/-- Every POSTED or TAKEN card ends RESTARTED, ascending; the intake list is emptied (R187). -/
def restartCards (s : State) : State :=
  let s := forEach 40 (fun c s =>
    match s.cardState c with
    | .posted | .taken => endCardAs c .restarted 0 .refused s
    | .free | .done | .refused => s) s
  { s with cards := { s.cards with intake := [] } }

/-- Every block at its restart values (R194); the channels keep their tokens (R146). -/
def restartBlocks (s : State) : State :=
  resetCalls
    { s with
      part := .unconfigured, tables := Tables.start, line := Line.start,
      stations := Vector.replicate 48 StationRecord.start
      packs := Vector.replicate 2 PackRecord.start
      ramps := Vector.replicate 4 RampRecord.start
      doors := Vector.replicate 32 DoorRecord.start
      doorUnit := DoorUnit.start
      zones := Vector.replicate 8 ZoneRecord.start
      watch := Vector.replicate 8 WatchRecord.start
      handovers := [] }

/-- Every image record is rewritten. -/
def always : RecordId → Bool := fun _ => true

/-- The restart command (R187, R194): at its end ATTENTION is ORDERS alone. -/
def restart (s : State) : State :=
  let t := asEvent always (fun s => restartBlocks (restartCards s)) s
  { t with attention := Flag.orders.mask }

/-- A write to PORT CONTROL (R174): bits 9-0 are the enables; 1001 in bits 15-12 is the restart command,
unless the part is STARTING. -/
def writePortControl (value : Word) (s : State) : State :=
  let s := setEnables (value.setWidth 10) s
  if hasRestartCode value = true ∧ s.part ≠ .starting then restart s else s

/-- RESTART_COMMAND (R194): the word has 1001 in bits 15-12. -/
def execRestartCommand (low : BitVec 12) (s : State) : Host.Outcome State Fault Refusal :=
  .next (writePortControl (0b1001#4 ++ low) s)

/-- PORT_CONTROL_ENABLES (R174, R176; LOG 24). -/
def execPortControlEnables (value : Word) (s : State) : Host.Outcome State Fault Refusal :=
  .next (writePortControl value s)

/-- ATTENTION_WRITE (R175). -/
def execAttentionWrite (value : Word) (s : State) : Host.Outcome State Fault Refusal :=
  .next (clearFlags value s)

/-- REGISTER_WRITE_NO_EFFECT (R174): nothing changes, and MISUSE is not set. -/
def execRegisterWriteNoEffect (_register : ReadOnlyRegister) (_value : Word) (s : State) :
    Host.Outcome State Fault Refusal :=
  .next s

/-! ### Power-on reset (R193) -/

/-- POWER_ON_RESET: STARTING with every word, register and record at its power-on value; the straps are
latched and the filter starts on the pin's level. The queue of commands is the model's own and is kept. -/
def execPowerOnReset (strapA strapB stopPin : Bool) (s : State) :
    Host.Outcome State Fault Refusal :=
  .next
    { State.reset with
      pending := s.pending
      pins :=
        { strapA := strapA, strapB := strapB, stopPin := stopPin, stopSince := 0, stopLevel := false } }

/-- STARTING_COMPLETE: UNCONFIGURED, with ATTENTION cleared (R174, R193). Outside STARTING nothing happens
(LOG 4). -/
def execStartingComplete (s : State) : Host.Outcome State Fault Refusal :=
  .next (if s.part = .starting then { s with part := .unconfigured, attention := 0 } else s)

end Sys2Proof.Machine
end

