-- ==== Sys2Proof/Machine/LineEvents.lean ====
section
/-! DEFINITION. The events of the deck line and of the deck stop pin (01_deck_line.md, 4.9). -/

namespace Sys2Proof.Machine

/-! ### The deck line -/

/-- The master frame has been sent: the answer window opens (R8). -/
def frameSent (s : State) : State :=
  if s.line.mode = .sending then setLine { s.line with mode := .listening } s else s

/-- FRAME_SENT (R8). -/
def execFrameSent (s : State) : Host.Outcome State Fault Refusal := event frameSent s

/-- The transaction whose answer the part listens for. -/
def State.awaitedAnswer (s : State) : Option Transaction :=
  match s.line.mode with
  | .listening | .receiving => s.line.transaction
  | _ => none

/-- A judged answer (R9, R10, R19). -/
def takeJudgement (t : Transaction) (j : Judgement) (s : State) : State :=
  match j with
  | .answered payload => finishAttempt t .answered payload s
  | .waited => if t.waited || t.removal then finishAttempt t .noAnswer [] s else pauseAfterWait t s
  | .naked => finishAttempt t .naked [] s
  | .corrupt => finishAttempt t .corrupt [] s

/-- An answer ends, `elapsed` milliseconds after the last command. One that does not begin in the window is
no answer, and only the time passes (R8; LOG 4, LOG 6). -/
def answerReceived (rx : Reception) (elapsed : Clock) (s : State) : State :=
  let s := advanceClock elapsed s
  match s.awaitedAnswer with
  | some t =>
    if rx.beginsInWindow then
      takeJudgement t (judgeAnswer (s.stationKind t.station) t (receiveFrame rx)) s
    else s
  | none => s

/-- ANSWER_RECEIVED (R9). -/
def execAnswerReceived (rx : Reception) (elapsed : Clock) (s : State) :
    Host.Outcome State Fault Refusal :=
  event (answerReceived rx elapsed) s

/-- The window closes with no answer (R8). -/
def windowClosed (s : State) : State :=
  match s.line.mode, s.line.transaction with
  | .listening, some t => finishAttempt t .noAnswer [] s
  | _, _ => s

/-- NO_ANSWER (R8). -/
def execNoAnswer (s : State) : Host.Outcome State Fault Refusal := event windowClosed s

/-- The pause after a WAIT ends: the same frame is sent again (R10). -/
def pauseOver (s : State) : State :=
  if s.line.mode = .paused then setLine { s.line with mode := .sending } s else s

/-- PAUSE_END (R10). -/
def execPauseEnd (s : State) : Host.Outcome State Fault Refusal := event pauseOver s

/-- The line has settled (R12). -/
def settlingOver (s : State) : State := if s.line.mode = .settling then endSettling s else s

/-- SETTLING_END (R12). -/
def execSettlingEnd (s : State) : Host.Outcome State Fault Refusal := event settlingOver s

/-! ### The deck stop pin (R84, R85, R122) -/

/-- The pin takes a level; a change restarts the filter's count (R84). -/
def changeStopPin (asserted : Bool) (s : State) : State :=
  if s.pins.stopPin = asserted then s
  else { s with pins := { s.pins with stopPin := asserted, stopSince := s.clock } }

/-- DECK_STOP_PIN_CHANGE (R84). -/
def execDeckStopPinChange (asserted : Bool) (s : State) : Host.Outcome State Fault Refusal :=
  .next (changeStopPin asserted s)

/-- The pin has stood at a level for 8 ms that the filtered level does not have. -/
def State.filterDue (s : State) (asserted : Bool) : Bool :=
  s.pins.stopPin == asserted && s.pins.stopLevel != asserted

/-- The filtered level changes and STOP is set (R84). -/
def setStopLevel (asserted : Bool) (s : State) : State :=
  let s := clockReaches s.pins.stopSince Config.stopFilterTime s
  raiseFlag .stop { s with pins := { s.pins with stopLevel := asserted } }

/-- The filtered level becomes asserted: ramps are held and opening doors stop (R85, R122), the ramps first
(LOG 42). -/
def stopAsserted (s : State) : State :=
  if s.filterDue true then doorsDeckStop (rampsDeckStop (setStopLevel true s)) else s

/-- DECK_STOP_ASSERTED (R85). -/
def execDeckStopAsserted (s : State) : Host.Outcome State Fault Refusal := event stopAsserted s

/-- The filtered level becomes released: nothing moves (R84, R85). -/
def stopReleased (s : State) : State := if s.filterDue false then setStopLevel false s else s

/-- DECK_STOP_RELEASED (R84). -/
def execDeckStopReleased (s : State) : Host.Outcome State Fault Refusal := event stopReleased s

end Sys2Proof.Machine
end

