-- ==== Sys2Proof/Machine/TimerEvents.lean ====
section
/-! DEFINITION. The expiries of the part's timers. A timer that does not run does not expire, and its
command changes nothing (LOG 4); one that runs brings the deck clock to its end (LOG 5). -/

namespace Sys2Proof.Machine

/-- The expiry of a timer. -/
def expire (t : Timer) (act : State → State) (s : State) : State :=
  match t with
  | some r => act (atExpiry r s)
  | none => s

/-- DURATION_TIMER_EXPIRY (R73). -/
def execDurationTimerExpiry (r : Fin 4) (s : State) : Host.Outcome State Fault Refusal :=
  event (expire s.ramps[r].durationTimer (durationOver r)) s

/-- STAGE_LIMIT_EXPIRY (R74). -/
def execStageLimitExpiry (r : Fin 4) (s : State) : Host.Outcome State Fault Refusal :=
  event (expire s.ramps[r].limitTimer (limitOver r)) s

/-- BLANK_TIMER_EXPIRY (R93). -/
def execBlankTimerExpiry (r : Fin 4) (s : State) : Host.Outcome State Fault Refusal :=
  event (expire s.ramps[r].pace.blankTimer (blankOver r)) s

/-- LEAD_TIMER_EXPIRY (R98). -/
def execLeadTimerExpiry (r : Fin 4) (s : State) : Host.Outcome State Fault Refusal :=
  event (expire s.ramps[r].pace.leadTimer (leadOver r)) s

/-- The mark timer reaches the stall limit (R99). -/
def stall (r : Fin 4) (s : State) : State :=
  match s.stallWatch r with
  | some (start, limit) => stallRamp r (clockReaches start limit s)
  | none => s

/-- STALL (R99). -/
def execStall (r : Fin 4) (s : State) : Host.Outcome State Fault Refusal := event (stall r) s

/-- The start timer, while it is the start limit of a STARTING pack (R50). -/
def State.startLimitTimer (s : State) (p : Fin 2) : Timer :=
  if s.packs[p].state = .starting then s.packs[p].startTimer else none

/-- PUMP_START_LIMIT_EXPIRY (R50). -/
def execPumpStartLimitExpiry (p : Fin 2) (s : State) : Host.Outcome State Fault Refusal :=
  event (expire (s.startLimitTimer p) (startLimitOver p)) s

/-- The start timer, while it is the recovery dwell of a FAILED pack (R55). -/
def State.recoveryTimer (s : State) (p : Fin 2) : Timer :=
  if s.packs[p].state = .failed then s.packs[p].startTimer else none

/-- RECOVERY_DWELL_EXPIRY (R56). -/
def execRecoveryDwellExpiry (p : Fin 2) (s : State) : Host.Outcome State Fault Refusal :=
  event (expire (s.recoveryTimer p) (recoveryOver p)) s

/-- PARK_HOLD_EXPIRY (R52). -/
def execParkHoldExpiry (p : Fin 2) (s : State) : Host.Outcome State Fault Refusal :=
  event (expire s.packs[p].parkHoldTimer (parkHoldOver p)) s

/-- WARNING_TIMER_EXPIRY (R106). -/
def execWarningTimerExpiry (d : Fin 32) (s : State) : Host.Outcome State Fault Refusal :=
  event (expire s.doors[d].warningTimer (warningOver d)) s

/-- MOTION_TIMER_EXPIRY (R108, R115). -/
def execMotionTimerExpiry (d : Fin 32) (s : State) : Host.Outcome State Fault Refusal :=
  event (expire s.doors[d].motionTimer (motionOver d)) s

/-- RETRY_TIMER_EXPIRY (R113). -/
def execRetryTimerExpiry (d : Fin 32) (s : State) : Host.Outcome State Fault Refusal :=
  event (expire s.doors[d].retryTimer (retryOver d)) s

/-- PACK_WAIT_TIMER_EXPIRY (R112). -/
def execPackWaitTimerExpiry (d : Fin 32) (s : State) : Host.Outcome State Fault Refusal :=
  event (expire s.doors[d].packWaitTimer (packWaitOver d)) s

/-- ALERT_TIMER_EXPIRY (R131). -/
def execAlertTimerExpiry (z : Fin 8) (s : State) : Host.Outcome State Fault Refusal :=
  event (expire s.zones[z].alertTimer (alertOver z)) s

/-- STAGGER_TIMER_EXPIRY (R136). -/
def execStaggerTimerExpiry (z : Fin 8) (s : State) : Host.Outcome State Fault Refusal :=
  event (expire s.zones[z].staggerTimer (staggerOver z)) s

/-- The play limit of a zone channel runs out: the zone falls silent, with STOP, URGENT (R155). -/
def playLimitOver (z : Fin 8) (s : State) : State :=
  silenceChannel z .stop true (setChannel z { s.channels[z] with playTimer := none } s)

/-- PLAY_LIMIT_TIMER_EXPIRY (R155). -/
def execPlayLimitTimerExpiry (z : Fin 8) (s : State) : Host.Outcome State Fault Refusal :=
  event (expire s.channels[z].playTimer (playLimitOver z)) s

/-- The gap of a call runs out: its next repeat begins (R156). -/
def gapOver (i : Fin 16) (s : State) : State :=
  startTest (beginRepeat repeatFuel i (setSlot i { s.slots[i] with gapTimer := none } s))

/-- GAP_TIMER_EXPIRY (R156). -/
def execGapTimerExpiry (slot : Fin 16) (s : State) : Host.Outcome State Fault Refusal :=
  event (expire s.slots[slot].gapTimer (gapOver slot)) s

end Sys2Proof.Machine
end

