-- ==== Sys2Proof/Machine/Notices.lean ====
section
/-! DEFINITION. The hand-overs between blocks that are commands of their own. Each is in flight from the
event that makes it until its command takes it; a command whose hand-over is not in flight changes nothing
(LOG 4, LOG 7). -/

namespace Sys2Proof.Machine

/-- Take a hand-over that is in flight. -/
def deliver (h : Handover) (act : State → State) (s : State) : State :=
  if s.inFlight h then act (dropHandover h s) else s

/-- GRANT_NOTICE (R67, R110). -/
def execGrantNotice (p : Fin 2) (q : Requester) (s : State) : Host.Outcome State Fault Refusal :=
  event (deliver (.grant p q) (takeGrant p q)) s

/-- PREEMPTION_DEMAND (R77): a grant notice of the pack still in flight is taken first (LOG 8). -/
def execPreemptionDemand (p : Fin 2) (r : Fin 4) (s : State) : Host.Outcome State Fault Refusal :=
  event (deliver (.preemption p r) (fun s => takePreemption r (settleGrant p s))) s

/-- ZONE_HOLD (R78). -/
def execZoneHold (z : Fin 8) (s : State) : Host.Outcome State Fault Refusal :=
  event (deliver (.zoneHold z) (takeZoneHold z)) s

/-- PACK_WITHDRAWAL (R45). -/
def execPackWithdrawal (p : Fin 2) (q : Requester) (s : State) : Host.Outcome State Fault Refusal :=
  event (deliver (.withdrawal p q) (takeWithdrawal p q)) s

/-- DOOR_START (R106, R107). -/
def execDoorStart (d : Fin 32) (s : State) : Host.Outcome State Fault Refusal :=
  event (deliver (.doorStart d) (takeStart d)) s

/-- ZONE_DEMAND (R118, R132). -/
def execZoneDemand (z : Fin 8) (s : State) : Host.Outcome State Fault Refusal :=
  event (deliver (.zoneDemand z) (takeZoneDemand z)) s

/-- ZONE_SEALING_NOTICE (R157). -/
def execZoneSealingNotice (z : Fin 8) (s : State) : Host.Outcome State Fault Refusal :=
  event (deliver (.sealingNotice z) (takeSealingNotice z)) s

end Sys2Proof.Machine
end

