-- ==== Sys2Proof/Machine/Dispatch.lean ====
section
/-! DEFINITION. The meaning of each command: one arm per constructor of Instr, in the opcode table's order. -/

namespace Sys2Proof.Machine

def exec (i : Instr) (s : State) : Host.Outcome State Fault Refusal :=
  match i with
  | .powerOnReset strapA strapB stopPin => Sys2Proof.Machine.execPowerOnReset strapA strapB stopPin s
  | .startingComplete => Sys2Proof.Machine.execStartingComplete s
  | .restartCommand low => Sys2Proof.Machine.execRestartCommand low s
  | .portControlEnables value => Sys2Proof.Machine.execPortControlEnables value s
  | .attentionWrite value => Sys2Proof.Machine.execAttentionWrite value s
  | .registerWriteNoEffect register value => Sys2Proof.Machine.execRegisterWriteNoEffect register value s
  | .hostWrite address value => Sys2Proof.Machine.execHostWrite address value s
  | .post card => Sys2Proof.Machine.execPost card s
  | .withdrawal card => Sys2Proof.Machine.execWithdrawal card s
  | .unknownOrderKind => Sys2Proof.Machine.execUnknownOrderKind s
  | .loadTable => Sys2Proof.Machine.execLoadTable s
  | .startDeck => Sys2Proof.Machine.execStartDeck s
  | .cancel => Sys2Proof.Machine.execCancel s
  | .stationEnable => Sys2Proof.Machine.execStationEnable s
  | .stationDisable => Sys2Proof.Machine.execStationDisable s
  | .rampLower => Sys2Proof.Machine.execRampLower s
  | .rampRaise => Sys2Proof.Machine.execRampRaise s
  | .rampHold => Sys2Proof.Machine.execRampHold s
  | .rampResume => Sys2Proof.Machine.execRampResume s
  | .rampClear => Sys2Proof.Machine.execRampClear s
  | .doorClose => Sys2Proof.Machine.execDoorClose s
  | .doorOpen => Sys2Proof.Machine.execDoorOpen s
  | .doorClear => Sys2Proof.Machine.execDoorClear s
  | .zoneAlert => Sys2Proof.Machine.execZoneAlert s
  | .zoneSeal => Sys2Proof.Machine.execZoneSeal s
  | .zoneRelease => Sys2Proof.Machine.execZoneRelease s
  | .call => Sys2Proof.Machine.execCall s
  | .callStop => Sys2Proof.Machine.execCallStop s
  | .watchArm => Sys2Proof.Machine.execWatchArm s
  | .watchDisarm => Sys2Proof.Machine.execWatchDisarm s
  | .watchClear => Sys2Proof.Machine.execWatchClear s
  | .deckStopPinChange asserted => Sys2Proof.Machine.execDeckStopPinChange asserted s
  | .deckStopAsserted => Sys2Proof.Machine.execDeckStopAsserted s
  | .deckStopReleased => Sys2Proof.Machine.execDeckStopReleased s
  | .frameSent => Sys2Proof.Machine.execFrameSent s
  | .answerReceived rx elapsed => Sys2Proof.Machine.execAnswerReceived rx elapsed s
  | .noAnswer => Sys2Proof.Machine.execNoAnswer s
  | .pauseEnd => Sys2Proof.Machine.execPauseEnd s
  | .settlingEnd => Sys2Proof.Machine.execSettlingEnd s
  | .durationTimerExpiry r => Sys2Proof.Machine.execDurationTimerExpiry r s
  | .stageLimitExpiry r => Sys2Proof.Machine.execStageLimitExpiry r s
  | .blankTimerExpiry r => Sys2Proof.Machine.execBlankTimerExpiry r s
  | .leadTimerExpiry r => Sys2Proof.Machine.execLeadTimerExpiry r s
  | .stall r => Sys2Proof.Machine.execStall r s
  | .grantNotice p q => Sys2Proof.Machine.execGrantNotice p q s
  | .preemptionDemand p r => Sys2Proof.Machine.execPreemptionDemand p r s
  | .zoneHold z => Sys2Proof.Machine.execZoneHold z s
  | .packWithdrawal p q => Sys2Proof.Machine.execPackWithdrawal p q s
  | .pumpStartLimitExpiry p => Sys2Proof.Machine.execPumpStartLimitExpiry p s
  | .recoveryDwellExpiry p => Sys2Proof.Machine.execRecoveryDwellExpiry p s
  | .parkHoldExpiry p => Sys2Proof.Machine.execParkHoldExpiry p s
  | .warningTimerExpiry d => Sys2Proof.Machine.execWarningTimerExpiry d s
  | .doorStart d => Sys2Proof.Machine.execDoorStart d s
  | .motionTimerExpiry d => Sys2Proof.Machine.execMotionTimerExpiry d s
  | .retryTimerExpiry d => Sys2Proof.Machine.execRetryTimerExpiry d s
  | .packWaitTimerExpiry d => Sys2Proof.Machine.execPackWaitTimerExpiry d s
  | .zoneDemand z => Sys2Proof.Machine.execZoneDemand z s
  | .alertTimerExpiry z => Sys2Proof.Machine.execAlertTimerExpiry z s
  | .staggerTimerExpiry z => Sys2Proof.Machine.execStaggerTimerExpiry z s
  | .zoneSealingNotice z => Sys2Proof.Machine.execZoneSealingNotice z s
  | .playLimitTimerExpiry z => Sys2Proof.Machine.execPlayLimitTimerExpiry z s
  | .gapTimerExpiry slot => Sys2Proof.Machine.execGapTimerExpiry slot s

end Sys2Proof.Machine
end

