-- ==== Sys2Proof/Machine/OwnWork.lean ====
section
/-! DEFINITION. What the part does with no command in its queue: the hand-overs between its blocks, the
taking of posted cards, the expiries that are due, and the passing of time (LOG 3). -/

namespace Sys2Proof.Machine

/-- The command that takes a hand-over. -/
def Handover.command (h : Handover) : Instr :=
  match h with
  | .grant p q => .grantNotice p q
  | .preemption p r => .preemptionDemand p r
  | .zoneHold z => .zoneHold z
  | .withdrawal p q => .packWithdrawal p q
  | .doorStart d => .doorStart d
  | .zoneDemand z => .zoneDemand z
  | .sealingNotice z => .zoneSealingNotice z

/-- The taking of a card of an order kind. -/
def OrderKind.command (k : OrderKind) : Instr :=
  match k with
  | .loadTable => .loadTable
  | .startDeck => .startDeck
  | .cancel => .cancel
  | .stationEnable => .stationEnable
  | .stationDisable => .stationDisable
  | .rampLower => .rampLower
  | .rampRaise => .rampRaise
  | .rampHold => .rampHold
  | .rampResume => .rampResume
  | .rampClear => .rampClear
  | .doorClose => .doorClose
  | .doorOpen => .doorOpen
  | .doorClear => .doorClear
  | .zoneAlert => .zoneAlert
  | .zoneSeal => .zoneSeal
  | .zoneRelease => .zoneRelease
  | .call => .call
  | .callStop => .callStop
  | .watchArm => .watchArm
  | .watchDisarm => .watchDisarm
  | .watchClear => .watchClear

/-- The taking of the card at the head of the intake list. -/
def State.nextTaking (s : State) : Option Instr :=
  match s.headCard with
  | some c =>
    match s.cardKind c with
    | some k => some k.command
    | none => some .unknownOrderKind
  | none => none

/-- A timer whose end has come: the command of its expiry. -/
def dueTimer (now : Clock) (t : Timer) (c : Instr) : List Instr :=
  match t with
  | some r => if r.length ≤ elapsed now r.start then [c] else []
  | none => []

/-- A ramp's timers that are due, and its stall. -/
def State.dueOfRamp (s : State) (r : Fin 4) : List Instr :=
  let rec_ := s.ramps[r]
  dueTimer s.clock rec_.durationTimer (.durationTimerExpiry r) ++
    dueTimer s.clock rec_.limitTimer (.stageLimitExpiry r) ++
    dueTimer s.clock rec_.pace.blankTimer (.blankTimerExpiry r) ++
    dueTimer s.clock rec_.pace.leadTimer (.leadTimerExpiry r) ++
    (match s.stallWatch r with
      | some (start, limit) => dueTimer s.clock (some ⟨start, limit⟩) (.stall r)
      | none => [])

/-- A pack's timers that are due. -/
def State.dueOfPack (s : State) (p : Fin 2) : List Instr :=
  dueTimer s.clock (s.startLimitTimer p) (.pumpStartLimitExpiry p) ++
    dueTimer s.clock (s.recoveryTimer p) (.recoveryDwellExpiry p) ++
    dueTimer s.clock s.packs[p].parkHoldTimer (.parkHoldExpiry p)

/-- A door's timers that are due. -/
def State.dueOfDoor (s : State) (d : Fin 32) : List Instr :=
  let r := s.doors[d]
  dueTimer s.clock r.warningTimer (.warningTimerExpiry d) ++
    dueTimer s.clock r.motionTimer (.motionTimerExpiry d) ++
    dueTimer s.clock r.retryTimer (.retryTimerExpiry d) ++
    dueTimer s.clock r.packWaitTimer (.packWaitTimerExpiry d)

/-- A zone's timers that are due, its channel's among them. -/
def State.dueOfZone (s : State) (z : Fin 8) : List Instr :=
  dueTimer s.clock s.zones[z].alertTimer (.alertTimerExpiry z) ++
    dueTimer s.clock s.zones[z].staggerTimer (.staggerTimerExpiry z) ++
    dueTimer s.clock s.channels[z].playTimer (.playLimitTimerExpiry z)

/-- The deck stop filter, when the pin has stood at its level for 8 ms (R84). -/
def State.dueFilter (s : State) : List Instr :=
  if s.pins.stopPin != s.pins.stopLevel ∧ Config.stopFilterTime ≤ elapsed s.clock s.pins.stopSince then
    [if s.pins.stopPin then .deckStopAsserted else .deckStopReleased]
  else []

/-- The expiries that are due. Their order is the model's (LOG 3). -/
def State.due (s : State) : List Instr :=
  s.dueFilter ++ (List.finRange 4).flatMap s.dueOfRamp ++ (List.finRange 2).flatMap s.dueOfPack ++
    (List.finRange 32).flatMap s.dueOfDoor ++ (List.finRange 8).flatMap s.dueOfZone ++
    (List.finRange 16).flatMap fun i => dueTimer s.clock s.slots[i].gapTimer (.gapTimerExpiry i)

/-- What the part has to do by itself: the oldest hand-over in flight, then the taking of the card at the
head of the intake list, then an expiry that is due (LOG 3). -/
def State.ownNext (s : State) : Option Instr :=
  match s.handovers with
  | h :: _ => some h.command
  | [] =>
    match s.nextTaking with
    | some c => some c
    | none => s.due.head?

/-- A tick: one millisecond of the deck clock (LOG 3). -/
def tick (s : State) : State := advanceClock 1 s

end Sys2Proof.Machine
end

