-- ==== Sys2Proof/Machine/Step.lean ====
section
/-! DEFINITION. The step: the command at the front of the queue, or on an empty queue what the part does by
itself (LOG 3). -/

namespace Sys2Proof.Machine

/-- The step: the command at the front of the queue is run with the queue's rest; on an empty queue the part
does its own work, and with none a millisecond passes (LOG 3). -/
def step (s : State) : Host.Outcome State Fault Refusal :=
  match s.pending with
  | c :: rest => exec c { s with pending := rest }
  | [] =>
    match s.ownNext with
    | some c => exec c s
    | none => .next (tick s)

/-- The state with the command a word spells put at the front of its queue. -/
def State.withFetchWord (s : State) (nbits w : Nat) : State :=
  match decodeTableWord nbits w with
  | some c => { s with pending := c :: s.pending }
  | none => s

end Sys2Proof.Machine
end

