-- ==== Sys2Proof/Safety.lean ====
section
/-! DEFINITION. What a safe run is on this block, in the terms the statements use: the canonical form of
exchange memory, the words that only the part writes, the pieces of the state a command leaves as they are,
and what becomes of the cards. -/

namespace Sys2Proof.Machine

/-- A word that exchange memory never stores by itself: the header, the card state words and the image area
are views of the state (LOG 9). -/
def isView (a : Nat) : Bool :=
  decide (a < Config.cardBase) ||
    (match cardAt a with
      | some (_, 0) => true
      | _ => false) ||
    (decide (Config.imageBase ≤ a) && decide (a < Config.imageLimit))

/-- Stored memory is in canonical form and holds no word that is a view. -/
def State.memoryOk (s : State) : Bool := s.mem.wf && s.mem.all fun x => !isView x.1

/-- A step that answers a next state: the part neither faults nor refuses. -/
def goesOn (o : Host.Outcome State Fault Refusal) : Bool :=
  match o with
  | .next _ => true
  | _ => false

/-! ### Pieces of the state -/

/-- The pieces of the state that a command may leave as they are. The line's list (pending SETs and owed set)
and its course (all the rest) are two pieces; so are a station's composed image, its SET sequence number and
the rest of its record. -/
inductive Piece where
  | pending | clock | pins | part | enables | attention | misuse
  | shadow | intake | completed | mem | tables
  | lineList | lineCourse | stationImages | stationSequences | stationRest
  | packs | ramps | doors | doorUnit | zones | slots | channels | callUnit | watch | counts | handovers
deriving DecidableEq, Repr

/-- The line without its lists. -/
def Line.course (l : Line) : Line := { l with pending := [], owed := Vector.replicate 48 none }

/-- A station record without its composed image and its sequence number. -/
def StationRecord.rest (r : StationRecord) : StationRecord := { r with image := 0, sequence := 0 }

/-- A piece is the same in two states. -/
def Piece.same : Piece → State → State → Prop
  | .pending, s, t => t.pending = s.pending
  | .clock, s, t => t.clock = s.clock
  | .pins, s, t => t.pins = s.pins
  | .part, s, t => t.part = s.part
  | .enables, s, t => t.enables = s.enables
  | .attention, s, t => t.attention = s.attention
  | .misuse, s, t => t.misuse = s.misuse
  | .shadow, s, t => t.cards.shadow = s.cards.shadow
  | .intake, s, t => t.cards.intake = s.cards.intake
  | .completed, s, t => t.cards.completed = s.cards.completed
  | .mem, s, t => t.mem = s.mem
  | .tables, s, t => t.tables = s.tables
  | .lineList, s, t => t.line.pending = s.line.pending ∧ t.line.owed = s.line.owed
  | .lineCourse, s, t => t.line.course = s.line.course
  | .stationImages, s, t => ∀ i : Fin 48, t.stations[i].image = s.stations[i].image
  | .stationSequences, s, t => ∀ i : Fin 48, t.stations[i].sequence = s.stations[i].sequence
  | .stationRest, s, t => ∀ i : Fin 48, t.stations[i].rest = s.stations[i].rest
  | .packs, s, t => t.packs = s.packs
  | .ramps, s, t => t.ramps = s.ramps
  | .doors, s, t => t.doors = s.doors
  | .doorUnit, s, t => t.doorUnit = s.doorUnit
  | .zones, s, t => t.zones = s.zones
  | .slots, s, t => t.slots = s.slots
  | .channels, s, t => t.channels = s.channels
  | .callUnit, s, t => t.callUnit = s.callUnit
  | .watch, s, t => t.watch = s.watch
  | .counts, s, t => t.counts = s.counts
  | .handovers, s, t => t.handovers = s.handovers

/-- Every piece that is not among the touched ones is the same. -/
def SameBut (touched : List Piece) (s t : State) : Prop := ∀ p, p ∉ touched → p.same s t

/-! ### Cards -/

/-- The card's state word says DONE or REFUSED. -/
def State.hasEnded (s : State) (c : CardId) : Prop := s.cardState c = .done ∨ s.cardState c = .refused

/-- An action card that the watch unit has posted (R167). -/
def State.isPostedAction (s : State) (c : CardId) : Prop :=
  isBoardCard c = false ∧ s.cardState c = .posted

/-- An address is one of the outcome words (12 to 15) of a card: outcome, detail, finish stamp. -/
def isOutcomeWord (c : CardId) (a : Nat) : Prop := ∃ k, 12 ≤ k ∧ k ≤ 15 ∧ a = cardAddress c k

/-- A card that an owner has ended, or that the watch unit has posted since (R167, R183). -/
def State.settled (s : State) (c : CardId) : Prop := s.hasEnded c ∨ s.isPostedAction c

/-- Every word of memory is the same, but for the outcome words of cards that have ended (R183, R188, R196).
An action card may have been posted again since. -/
def MemorySameButEnded (s t : State) : Prop :=
  ∀ a, (∀ c, isOutcomeWord c a → ¬ t.settled c) → t.mem.read a = s.mem.read a

/-- A flag that was set is set (R175). -/
def FlagsStay (s t : State) : Prop := ∀ f : Flag, s.hasFlag f = true → t.hasFlag f = true

/-- The card holds an outcome and a detail with the present deck clock as its finish stamp, and its state word
says what the outcome fixes (R183, R184); the watch unit may have posted an action card again at the same
command (R167). -/
def State.endedWith (s : State) (c : CardId) (o : OrderOutcome) (detail : Nat) : Prop :=
  s.cardWord c 12 = BitVec.ofNat 16 o.code ∧ s.cardWord c 13 = BitVec.ofNat 16 detail ∧
    s.cardWord c 14 = s.clock.setWidth 16 ∧ s.cardWord c 15 = (s.clock >>> 16).setWidth 16 ∧
    (s.cardState c = o.endState ∨ s.isPostedAction c)

/-- The card at the head of the intake list carries an order of a kind that passes the checks of R182, and is
handed to its owner. -/
def State.takes (s : State) (k : OrderKind) (c : CardId) : Prop :=
  s.headOrder k = some c ∧ refuseAtTaking k c s = none

/-! ### Invariants -/

/-- Every change count is even: no image record is between the two advances of a rewrite (R186). -/
def State.countsEven (s : State) : Prop := ∀ id : RecordId, (s.changeCount id).getLsbD 0 = false

/-- An idle line has nothing to send: no entry to choose and no station to poll (R20). -/
def State.lineRests (s : State) : Prop :=
  s.line.mode = .idle → s.line.chooseEntry = none ∧ s.rosterVisit = none ∧ s.fastVisit = none

/-- The intake list holds every POSTED card once, and no other card (R178, R181). -/
def State.intakeSound (s : State) : Prop :=
  s.cards.intake.Nodup ∧ ∀ c, c ∈ s.cards.intake ↔ s.cardState c = .posted

/-- The card a record holds. -/
def State.heldCard (s : State) : CardOwner → Option CardId
  | .ramp r => s.ramps[r].card
  | .door d => s.doors[d].card
  | .zone z => s.zones[z].card
  | .call i => s.slots[i].card

/-- The intake list is the list of the POSTED cards; every card that a record holds is TAKEN and held by that
record alone; and a door under a zone's demand holds none (R117, R180 to R182). -/
def State.cardsSound (s : State) : Prop :=
  s.intakeSound ∧ (∀ o c, s.heldCard o = some c → s.cardState c = .taken) ∧
    (∀ o o' c, s.heldCard o = some c → s.heldCard o' = some c → o = o') ∧
    ∀ d : Fin 32, s.doors[d].card ≠ none → s.doors[d].origin ≠ .zone ∧ s.doorEntry d ≠ none

/-- Every fitted door's outputs are those of its kind, state and demand (R104). -/
def State.outputsFollow (s : State) : Prop :=
  ∀ d e, s.doorEntry d = some e → s.doors[d].outputs = doorOutputs e.kind s.doors[d]

/-- Every station's composed image is that of its owner's contributions as they stand (R36). -/
def State.imagesFollow (s : State) : Prop := ∀ i : Fin 48, s.stations[i].image = composeImage s i

/-- The pending SET list holds at most one entry for each station (R16). -/
def State.listOnce (s : State) : Prop := (s.line.pending.map (·.station)).Nodup

/-- A rejoin is pending at LOST stations alone (R28, R34, R38). -/
def State.rejoinsLost (s : State) : Prop :=
  ∀ i : Fin 48, s.stations[i].rejoinPending = true → s.stations[i].state = .lost

/-! ### Checks in their order -/

/-- The verdict of the first check that applies; `none` when none does. -/
def firstOf {α : Type} (checks : List (Bool × α)) : Option α := (checks.find? (·.1)).map (·.2)

/-- What judging an entry answers by its fields in error, each with its word offset, in the order they are
judged: the first one's offset, or the value read with the clamped fields counted (R189, R191). -/
def entryVerdict {α : Type} (errors : List (Bool × Nat)) (clamped : List Bool) (value : α) : Judging α :=
  fun n =>
    match firstOf errors with
    | some offset => .error offset
    | none => .ok (value, n + clamped.count true)

/-- A field whose value lies outside a range. -/
def outside (low high : Nat) (w : Word) : Bool := decide (w.toNat < low ∨ high < w.toNat)

/-- The thing on deck that a word names, when it names one of n. -/
def numbered (n : Nat) [NeZero n] (w : Word) : Fin n := Fin.ofNat n (w.toNat - 1)

/-- A word that an earlier entry has at the same offset. -/
def repeated (t : TableWords) (entry offset : Nat) : Bool :=
  (List.range entry).any fun k => t k offset == t entry offset

/-- A station entry as R25 has it. -/
def stationVerdict (t : TableWords) (i : Fin 48) : Judging StationEntry :=
  let w := t i
  let used := w 0 != 0
  entryVerdict
    [(outside 0 5 (w 0), 0), (used && outside 0 1 (w 2), 2)]
    [used && outside 1 4 (w 1)]
    (if used then
      { kind := [.door, .ramp, .pack, .call, .sensor].getD ((w 0).toNat - 1) .none
        confirmCount := clampNat 1 4 (w 1).toNat, enabledAtStart := w 2 == 1 }
    else StationEntry.start)

/-- A pack entry as R41 has it. -/
def packVerdict (t : TableWords) (p : Fin 2) : Judging PackEntry :=
  let w := t p
  entryVerdict
    [(outside 0 48 (w 0), 0), (w 0 != 0 && repeated t p 0, 0)]
    [outside 2 30 (w 1), outside 10 300 (w 2), outside 1 4 (w 3)]
    { station := if w 0 = 0 then none else some (numbered 48 (w 0))
      startLimit := clampNat 2 30 (w 1).toNat, parkHold := clampNat 10 300 (w 2).toNat
      capacity := clampNat 1 4 (w 3).toNat }

/-- A door entry as R102 has it. -/
def doorVerdict (t : TableWords) (d : Fin 32) : Judging (Option DoorEntry) :=
  let w := t d
  let fitted := w 0 != 0
  let hydraulic := w 0 == 2 || w 0 == 3
  let taken := (List.range d.val).any fun k => t k 0 != 0 && t k 1 == w 1 && t k 2 == w 2
  entryVerdict
    [(outside 0 3 (w 0), 0), (fitted && outside 1 48 (w 1), 1), (fitted && outside 1 4 (w 2), 2),
      (fitted && taken, 2), (fitted && outside 1 8 (w 3), 3), (hydraulic && outside 1 2 (w 4), 4),
      (w 0 == 3 && outside 1 4 (w 5), 5)]
    [fitted && outside 0 30 (w 6), fitted && outside 1 120 (w 7), fitted && outside 1 120 (w 8),
      hydraulic && outside 0 7 (w 9), hydraulic && outside 1 30 (w 10)]
    (if fitted then
      some
        { kind :=
            if w 0 = 1 then .springFire
            else if w 0 = 2 then .hydraulicFire (numbered 2 (w 4))
            else .gate (numbered 2 (w 4)) (numbered 4 (w 5))
          station := numbered 48 (w 1), point := numbered 4 (w 2), zone := numbered 8 (w 3)
          warnTime := clampNat 0 30 (w 6).toNat, closeLimit := clampNat 1 120 (w 7).toNat
          openLimit := clampNat 1 120 (w 8).toNat
          retryLimit := if hydraulic then clampNat 0 7 (w 9).toNat else 0
          retryDelay := if hydraulic then clampNat 1 30 (w 10).toNat else 0 }
    else none)

/-- The elements in error of a list of door numbers: out of range, or named before in the list. Its count
stands at a word, its elements in the words after it. -/
def doorListErrors (w : Nat → Word) (count limit : Nat) : List (Bool × Nat) :=
  (outside 0 limit (w count), count) ::
    (List.range (w count).toNat).map fun k =>
      (outside 1 32 (w (count + 1 + k)) ||
        (List.range k).any fun j => w (count + 1 + j) == w (count + 1 + k), count + 1 + k)

/-- The doors a list names. -/
def doorList (w : Nat → Word) (count : Nat) : List (Fin 32) :=
  (List.range (w count).toNat).map fun k => numbered 32 (w (count + 1 + k))

/-- A zone entry as R126 has it; two equal points are an error of the second (LOG 19). -/
def zoneVerdict (t : TableWords) (z : Fin 8) : Judging ZoneEntry :=
  let w := t z
  let one := decide (1 ≤ (w 0).toNat)
  let two := decide (2 ≤ (w 0).toNat)
  entryVerdict
    ([(outside 0 2 (w 0), 0), (one && outside 1 48 (w 1), 1), (one && outside 1 4 (w 2), 2),
      (two && outside 1 48 (w 3), 3), (two && outside 1 4 (w 4), 4),
      (two && w 1 == w 3 && w 2 == w 4, 4), (outside 0 48 (w 5), 5),
      (w 5 != 0 && repeated t z 5, 5)] ++ doorListErrors w 6 8 ++
      [(outside 0 1 (w 15), 15), (outside 0 255 (w 17), 17)])
    [outside 0 60 (w 16), outside 1 8 (w 18), outside 0 10 (w 19)]
    { points := (List.range (w 0).toNat).map fun k =>
        (numbered 48 (w (1 + 2 * k)), numbered 4 (w (2 + 2 * k)))
      callStation := if w 5 = 0 then none else some (numbered 48 (w 5))
      closeOrder := doorList w 6, autoSeal := w 15 == 1, confirmTime := clampNat 0 60 (w 16).toNat
      clip := (w 17).toNat, repeats := clampNat 1 8 (w 18).toNat, stagger := clampNat 0 10 (w 19).toNat }

/-- The word of stage s of a ramp entry, s from 1. -/
def stageWord (w : Nat → Word) (s k : Nat) : Word := w (16 + 8 * (s - 1) + k)

/-- The program does not come to a next stage of 0 within 12 stages (R59). -/
def endless (w : Nat → Word) (first : Word) : Bool :=
  (List.range 12).foldl (fun s _ => if s = 0 then 0 else (stageWord w s 3).toNat) first.toNat != 0

/-- A ramp entry as R58 and R59 have it; the links of a program are followed after the stage records they
name (LOG 19). -/
def rampVerdict (t : TableWords) (r : Fin 4) : Judging (Option RampEntry) :=
  let w := t r
  let travel := (w 3).toNat
  let stages := (List.range 12).map (· + 1)
  let isTime (s : Nat) := stageWord w s 1 == 1
  let isMark (s : Nat) := stageWord w s 1 == 2
  let stageErrors (s : Nat) : List (Bool × Nat) :=
    let at_ := 16 + 8 * (s - 1)
    [(outside 1 3 (stageWord w s 1), at_ + 1),
      (isMark s && outside 0 travel (stageWord w s 2), at_ + 2),
      (stageWord w s 1 == 3 && outside 1 2 (stageWord w s 2), at_ + 2),
      (outside 0 12 (stageWord w s 3), at_ + 3)]
  let stage (s : Nat) : StageRecord :=
    { valves := (stageWord w s 0).setWidth 8
      endCondition :=
        if isTime s then .time (max 1 (stageWord w s 2).toNat)
        else if isMark s then .mark (stageWord w s 2).toNat
        else .switch (stageWord w s 2 == 2)
      next := (stageWord w s 3).toNat, limit := (stageWord w s 4).toNat
      reseed := (stageWord w s 5).toNat }
  if w 0 = 0 then Judging.value none
  else
    entryVerdict
      ([(outside 0 48 (w 0), 0), (repeated t r 0, 0), (outside 1 2 (w 1), 1), (outside 1 8 (w 2), 2),
        (outside 8 250 (w 3), 3), (w 4 == 0, 4), (!([1, 2, 4, 8] : List Word).contains (w 5), 5),
        (outside 0 1 (w 9), 9)] ++ doorListErrors w 10 2 ++
        [(outside 1 12 (w 13), 13), (outside 1 12 (w 14), 14)] ++ stages.flatMap stageErrors ++
        [(endless w (w 13), 13), (endless w (w 14), 14)])
      ([outside 0 127 (w 6), outside 0 127 (w 7), outside 2 15 (w 8)] ++
        stages.map fun s => isTime s && stageWord w s 2 == 0)
      (some
        { station := numbered 48 (w 0), pack := numbered 2 (w 1), zone := numbered 8 (w 2)
          travel := travel, nominal := (w 4).toNat, depth := (w 5).toNat
          lead := clampNat 0 127 (w 6).toNat, blank := clampNat 0 127 (w 7).toNat
          stallMultiple := clampNat 2 15 (w 8).toNat, warn := w 9 == 1, gates := doorList w 10
          lowerFirst := (w 13).toNat, raiseFirst := (w 14).toNat
          stages := Vector.ofFn fun k : Fin 12 => stage (k.val + 1) })

/-- Every reference that one table makes into another holds (R190). -/
def Tables.referencesHold (t : Tables) : TableName → TableName → Prop
  | .packs, .stations => ∀ (p : Fin 2) (i : Fin 48), t.packs[p].station = some i → t.stations[i].kind = .pack
  | .ramps, .stations => ∀ (r : Fin 4) e, t.ramps[r] = some e → t.stations[e.station].kind = .ramp
  | .ramps, .packs => ∀ (r : Fin 4) e, t.ramps[r] = some e → t.packs[e.pack].station ≠ none
  | .ramps, .doors => ∀ (r : Fin 4) e, t.ramps[r] = some e → ∀ d ∈ e.gates,
      ∃ x, t.doors[d] = some x ∧ x.kind.ramp? = some r
  | .doors, .stations => ∀ (d : Fin 32) e, t.doors[d] = some e → t.stations[e.station].kind = .door
  | .doors, .packs => ∀ (d : Fin 32) e, t.doors[d] = some e → ∀ p, e.kind.pack? = some p →
      t.packs[p].station ≠ none
  | .doors, .ramps => ∀ (d : Fin 32) e, t.doors[d] = some e → ∀ r, e.kind.ramp? = some r →
      ∃ x, t.ramps[r] = some x ∧ d ∈ x.gates
  | .zones, .stations => ∀ z : Fin 8,
      (∀ x ∈ t.zones[z].points, t.stations[x.1].kind = .sensor) ∧
      ∀ i, t.zones[z].callStation = some i → t.stations[i].kind = .call
  | .zones, .doors => ∀ z : Fin 8, ∀ d ∈ t.zones[z].closeOrder,
      ∃ x, t.doors[d] = some x ∧ x.zone = z
  | _, _ => True

/-- How the entries of a table that is not too busy to be loaded make up its load: the first entry in error
gives the detail; with none the cross-check decides, and a table adopted counts the clamped fields of all its
entries (R189 to R191). `put` is the adopted copies with the table replaced. -/
def loadsBy {n : Nat} {α : Type} (name : TableName) (f : Fin n → Judging α) (put : Vector α n → Tables)
    (s : State) : Prop :=
  (∀ (i : Fin n) (k : Nat), f i 0 = .error k → (∀ j, j < i → ∃ x, f j 0 = .ok x) →
    judgeLoad name s = .error (.tableError, 8192 * name.code + 128 * (i.val + 1) + k)) ∧
  ∀ v : Fin n → α × Nat, (∀ i, f i 0 = .ok (v i)) →
    judgeLoad name s =
      match crossCheck name (put (Vector.ofFn fun i => (v i).1)) with
      | some detail => .error (.tableError, detail)
      | none => .ok
          ({ put (Vector.ofFn fun i => (v i).1) with
              adopted := s.tables.adopted ||| BitVec.twoPow 5 (name.code - 1) },
            ((List.finRange n).map fun i => (v i).2).sum)

/-- No list of an adopted entry is longer than its rule lets it be (R58, R126). -/
def Tables.listsFit (t : Tables) : Prop :=
  (∀ (r : Fin 4) e, t.ramps[r] = some e → e.gates.length ≤ 2) ∧
    ∀ z : Fin 8, t.zones[z].points.length ≤ 2 ∧ t.zones[z].closeOrder.length ≤ 8

/-! ### Parameters (R147, R168, R182) -/

/-- The numbers a watch subject may carry: the greatest, by the subject's code (R163). -/
def subjectNumbers (subject : Word) : Nat :=
  [32, 4, 4, 8, 2, 48, 8].getD (subject.toNat - 1) 0

/-- The parameters of an order in the order they are checked, each with whether it fails and its number: those
of CALL (R147) and of WATCH ARM (R168); no other kind has any. -/
def parameterErrors (k : OrderKind) (p : Nat → Word) : List (Bool × Nat) :=
  match k with
  | .call =>
    [(outside 1 255 (p 1), 1), (outside 1 255 (p 2), 2), (outside 0 3 (p 3), 3), (outside 0 1 (p 6), 6),
      (outside 0 1 (p 7), 7)]
  | .watchArm =>
    [(outside 1 7 (p 1), 1), (outside 1 (subjectNumbers (p 1)) (p 2), 2), (outside 0 2 (p 3), 3),
      (outside 0 1 (p 6), 6), (p 6 == 1 && outside 0 7 (p 7), 7), (outside 0 1 (p 8), 8)]
  | _ => []

/-- The call that the parameters of a CALL card place (R147). -/
def callOf (c : CardId) (p : Nat → Word) : SlotRecord :=
  { SlotRecord.start with
    origin := .card c, card := some c, clip := (p 1).setWidth 8, zones := (p 2).setWidth 8
    priority := [.routine, .boarding, .safety, .emergency].getD (p 3).toNat .routine
    repeats := if p 4 = 0 then 1 else min 8 (p 4).toNat, gap := min 10 (p 5).toNat
    chime := p 6 == 1, resumeOnCut := p 7 == 1 }

/-- The fields that the parameters of a WATCH ARM card store (R168). -/
def channelOf (p : Nat → Word) : WatchRecord :=
  { WatchRecord.start with
    subject := [.none, .doorState, .rampState, .rampPosition, .zoneState, .packState, .stationState,
      .zoneAlarm].getD (p 1).toNat .none
    number := p 2, test := [.equal, .atLeast, .atMost].getD (p 3).toNat .equal, reference := p 4
    mask := p 5, post := p 6 == 1, actionCard := p 7, sequence := p 8 == 1 }

/-! ### Ramps and answers -/

/-- The interlocks of a program in their order, each with the refusal it gives (R65, R69). -/
def interlocks (e : RampEntry) (p : Program) (s : State) : List (Bool × (OrderOutcome × Nat)) :=
  let zone := s.zones[e.zone].state
  [(s.pins.stopLevel, (.interlock, 1)), (zone == .sealing, (.interlock, 2)),
    (p == .lower && (zone == .sealed || zone == .impaired), (.interlock, 3)),
    (s.packs[e.pack].state == .failed, (.interlock, 4))] ++
  e.gates.map fun d => (p == .lower && s.doors[d].state != .opened, (.interlock, 100 + (d.val + 1)))

/-- A poll in flight is answered with a report that brings a fitted ramp a count and confirms no new input: the
station, which serves this ramp alone, is PRESENT, has reported before, and shows its confirmed image. -/
def State.bringsCount (s : State) (tr : Transaction) (rx : Reception) (payload : List Byte) (r : Fin 4)
    (e : RampEntry) : Prop :=
  s.line.mode = .listening ∧ s.line.transaction = some tr ∧ rx.beginsInWindow = true ∧
    tr.discard = false ∧ tr.isSet = false ∧ s.stationKind tr.station = .ramp ∧
    judgeAnswer .ramp tr (receiveFrame rx) = .answered payload ∧
    s.rampEntry r = some e ∧ e.station = tr.station ∧ s.rampsOn tr.station = [r] ∧
    s.stations[tr.station].state = .present ∧ s.stations[tr.station].reportAwaited = false ∧
    reportWord payload &&& StationKind.ramp.inputMask = s.stations[tr.station].confirmed

/-- A ramp's record with a reported count and the station's confirmed switches (R62, R64): the position is the
count, or the travel marks with the over-travel mark set when the count is greater. -/
def RampRecord.counted (r : RampRecord) (e : RampEntry) (count : Byte) (confirmed : Word) : RampRecord :=
  { r with
    lastCount := count, position := min e.travel count.toNat
    overTravel := r.overTravel || decide (e.travel < count.toNat)
    stowed := confirmed.getLsbD 8, landed := confirmed.getLsbD 9 }

/-- The advance d of a report: the new position less the old under the lower program, the old less the new under
the raise program (R63). -/
def RampRecord.advance (r : RampRecord) (position : Nat) : Int :=
  if r.program = .raise then (r.position : Int) - position else (position : Int) - r.position

/-- The position lies short of a mark in the program's direction. -/
def RampRecord.isShort (r : RampRecord) (target : Nat) : Bool :=
  if r.program = .lower then decide (r.position < target) else decide (target < r.position)

/-- The approach test of R97: short of the target, at the approach mark or beyond it, with no lead yet. -/
def RampRecord.leadStarts (r : RampRecord) (target : Nat) : Bool :=
  r.isShort target &&
    (if r.program = .lower then decide (target ≤ r.position + 1) else decide (r.position ≤ target + 1)) &&
    r.pace.leadTimer.isNone && r.pace.l.isNone

/-- A ramp's record after its entry to stage n (R72, R90). -/
def RampRecord.inStage (r : RampRecord) (e : RampEntry) (n : Nat) (st : StageRecord) (now : Clock) :
    RampRecord :=
  { r with
    stage := n, programStage := n, awaitingGrant := false, valves := st.valves
    limitTimer := timerUnlessZero now (100 * st.limit)
    durationTimer := match st.endCondition with
      | .time duration => startTimer now (10 * duration)
      | _ => none
    pace := r.pace.stageEntry e st now }

/-- A ramp's record after its program has stopped short in a state, with a last end; a running stage parks
the valves (R76, R80). -/
def RampRecord.stopped (r : RampRecord) (st : RampState) (o : OrderOutcome) : RampRecord :=
  { r.stopTimers with
    state := st, stage := 0, awaitingGrant := false, card := none, lastEnd := some o
    valves := if r.awaitingGrant then r.valves else 0 }

/-- A ramp's record after its program has come to its end (R75). -/
def RampRecord.ended (r : RampRecord) : RampRecord :=
  { r.stopTimers with
    state := r.switchState, program := .none, stage := 0, programStage := 0, card := none, valves := 0
    lastEnd := some (if r.switchState = r.program.goal then .ok else .missedEnd) }

/-- The pace record of a stage from its entry on, with the history and the averaged pace that stand after the
stage's reseed (R90 to R92). -/
def PaceRecord.inStage (e : RampEntry) (history : List Nat) (p : Option Nat) (now : Clock) : PaceRecord where
  history := history
  p := p
  s := p.map fun p => p * e.blank / 128
  l := none
  stallLimit := p.map fun p => min 65535 (p * e.stallMultiple)
  warningCount := 0
  firstMarkPending := true
  markTimer := some now
  blankTimer := p.bind fun p => if p * e.blank / 128 = 0 then none else startTimer now (p * e.blank / 128)
  leadTimer := none

/-- An answer that carries a frame with the levels the part would send it with: it begins with the window. -/
def cleanAnswer (frame : List Byte) : Reception := { start := 0, levels := frameLevels frame }

/-! ### Start values judged from the stations -/

/-- The station is PRESENT and has reported, so its confirmed image speaks for its owner's records (R61, R103,
R128). -/
def StationRecord.hasReported (r : StationRecord) : Bool := r.state == .present && !r.reportAwaited

/-- The station is LOST or DISABLED. -/
def StationRecord.isOut (r : StationRecord) : Bool := r.state == .lost || r.state == .disabled

/-- A ramp's record at the adoption of a ramp or station table and at entry to RUNNING, with the last end that
is kept (R60, R61, R87). A last count past the travel marks leaves over-travel at yes (LOG 38). -/
def State.rampAtStart (s : State) (r : Fin 4) (lastEnd : Option OrderOutcome) : RampRecord :=
  let start := { RampRecord.start with lastEnd := lastEnd }
  match s.rampEntry r with
  | none => start
  | some e =>
    let station := s.stations[e.station]
    if station.hasReported then
      let r := start.counted e station.lastCount station.confirmed
      { r with state := r.switchState }
    else if station.isOut then { start with state := .fault, faultCause := .stationLost }
    else start

/-- A door's record at the adoption of a door or station table and at entry to RUNNING, with the last outcome
that is kept (R103 to R105). -/
def State.doorAtStart (s : State) (d : Fin 32) (lastOutcome : Option OrderOutcome) : DoorRecord :=
  let start := { DoorRecord.start with lastOutcome := lastOutcome }
  match s.doorEntry d with
  | none => start
  | some e =>
    let station := s.stations[e.station]
    let input (k : Nat) : Bool := station.hasReported && station.confirmed.getLsbD (4 * e.point.val + k)
    let r := { start with closedSwitch := input 0, openSwitch := input 1, beam := input 2 }
    let r := if station.hasReported then { r with state := r.switchState } else r
    { r with outputs := doorOutputs e.kind r }

/-- A zone's record at the adoption of a zone table and at entry to RUNNING, with the last door end that is
kept: CLEAR, or in ALERT when its alarm is present, and with an alert confirm time of 0 and auto seal in SEALING
already (R127, R128, R130 to R132). -/
def State.zoneAtStart (s : State) (z : Fin 8) (lastEnd : Option (Fin 32 × OrderOutcome)) : ZoneRecord :=
  let e := s.zoneEntry z
  let points := Vector.ofFn fun k : Fin 2 =>
    match e.points[k.val]? with
    | some (i, point) =>
      { active := s.stations[i].hasReported && s.stations[i].confirmed.getLsbD point.val
        lost := s.stations[i].isOut || (s.stations[i].state == .present && s.stations[i].reportAwaited) }
    | none => ⟨false, false⟩
  let alarm := points.any fun p => p.active || p.lost
  let seals := alarm && e.autoSeal && e.confirmTime == 0
  { ZoneRecord.start with
    state := if seals then .sealing else if alarm then .alert else .clear
    sealCause := if seals then .auto else .none, points := points, alarm := alarm
    alertTimer := if alarm && e.confirmTime != 0 then startTimer s.clock (1000 * e.confirmTime) else none
    placementPending := seals, doorStates := s.freshDoorStates z, lastDoorEnd := lastEnd }

/-- A pack that has failed for its station, otherwise at its start values, with the list it keeps (R42, R43,
R54, R55). -/
def PackRecord.outAtStart (dwell : Timer) (requests : List PackRequest) (designated : Option Requester) :
    PackRecord :=
  { PackRecord.start with
    state := .failed, failureCause := .station, startTimer := dwell
    requests := requests, designated := designated }

/-- The call unit's copy of a zone's state after it was told at these events (R128, R143). A zone that seals at
once has told its ALERT; its sealing notice is in flight (LOG 7). -/
def ZoneRecord.toldAtStart (r : ZoneRecord) : ZoneState := if r.state = .sealing then .alert else r.state

/-- A zone whose call station a new zone table has changed, while a call's repeat is SENT or PLAYING on its
channel (R160). -/
def State.fallsSilent (s : State) (tables : Tables) (z : Fin 8) (j : Fin 16) : Bool :=
  s.channels[z].holder == some j && s.slots[j].state == .playing &&
    (s.channels[z].progress == .sent || s.channels[z].progress == .playing) &&
    tables.zones[z].callStation != s.tables.zones[z].callStation

/-! ### The records after an adoption and at entry to RUNNING (`s` before, `t` after) -/

/-- The start timer of a pack that starts or fails now: the start limit, or the recovery dwell (R49, R55). -/
def State.packDwell (s : State) (p : Fin 2) : Timer := startTimer s.clock (1000 * (s.packEntry p).startLimit)

/-- The packs at adoption of a pack table (R43): a fitted pack whose station is LOST or DISABLED has failed;
with none, each is at its start values with its list and designation, and starts its pump if its list is not
empty. The lists and designations are kept by the failed ones too, while no notice of a failure finds a grant in flight,
a requester that holds a pack or a door that waits. -/
def packsAdopted (s t : State) : Prop :=
  (∀ p i, (t.packEntry p).station = some i → t.stations[i].isOut = true →
    t.packs[p] = .outAtStart (t.packDwell p) t.packs[p].requests t.packs[p].designated) ∧
  ((∀ p i, (t.packEntry p).station = some i → t.stations[i].isOut = false) →
    ∀ p : Fin 2, t.packs[p] =
      let kept :=
        { PackRecord.start with requests := s.packs[p].requests, designated := s.packs[p].designated }
      if s.packs[p].requests = [] then kept
      else { kept with state := .starting, pumpRun := true, startTimer := t.packDwell p }) ∧
  ((∀ p, s.grantInFlight p = none ∧ s.relation p ≠ .holding) →
    (∀ r : Fin 4, s.ramps[r].state = .moving → s.ramps[r].awaitingGrant = true) →
    (∀ d : Fin 32, s.doors[d].state ≠ .waiting) →
    ∀ p : Fin 2, t.packs[p].requests = s.packs[p].requests ∧
      t.packs[p].designated = s.packs[p].designated)

/-- The packs at entry to RUNNING (R42): a fitted pack whose station is DISABLED has failed; one whose station is
neither that nor LOST is at its start values, while no door waits for a pack or is deferred. -/
def packsStarted (s t : State) : Prop :=
  (∀ p i, (t.packEntry p).station = some i → t.stations[i].state = .disabled →
    t.packs[p].state = .failed ∧ t.packs[p].failureCause = .station) ∧
  ((∀ d : Fin 32, s.doors[d].state ≠ .waiting ∧ s.doors[d].deferred = false) →
    ∀ p : Fin 2,
      (∀ i, (t.packEntry p).station = some i → t.stations[i].state = .disabled →
        t.packs[p] = .outAtStart (t.packDwell p) [] none) ∧
      ((∀ i, (t.packEntry p).station = some i → t.stations[i].isOut = false) →
        t.packs[p] = PackRecord.start))

/-- The packs at adoption of a station table: a fitted pack whose station is now DISABLED fails, if it had not
(R54, R55). -/
def packsOnNewStations (s t : State) : Prop :=
  ∀ p i, (t.packEntry p).station = some i → t.stations[i].state = .disabled →
    t.packs[p].state = .failed ∧
      (s.packs[p].state ≠ .failed → t.packs[p] =
        { s.packs[p].failed .station (t.packDwell p) with
          requests := t.packs[p].requests, designated := t.packs[p].designated })

/-- The ramps at adoption of a ramp or station table and at entry to RUNNING: their records with their pace
records, and what the door unit knows of them (R61, R87). -/
def rampsAfresh (s t : State) : Prop :=
  ∀ r : Fin 4, t.ramps[r] = t.rampAtStart r t.ramps[r].lastEnd ∧
    (s.ramps[r].state ≠ .moving → t.ramps[r].lastEnd = s.ramps[r].lastEnd) ∧
    t.doorUnit.rampStowed[r] = (t.ramps[r].state == .stowed)

/-- The door unit at adoption of a door or station table and at entry to RUNNING (R103). No door is in a moving
state there while the part can run: the events before may end an operation of one that is. -/
def doorsAfresh (s t : State) : Prop :=
  (∀ d : Fin 32, t.doors[d] = t.doorAtStart d t.doors[d].lastOutcome ∧
    (s.doors[d].state.isMovingState = false → t.doors[d].lastOutcome = s.doors[d].lastOutcome)) ∧
    t.doorUnit.relation = Vector.replicate 2 .idle ∧ t.doorUnit.nextArrival = 0

/-- The ramp unit has been told of each gate door that was OPEN and is so no longer: a ramp that lowers is held
(R79, R103). -/
def gatesTold (s t : State) : Prop :=
  ∀ (r : Fin 4) (e : RampEntry) (d : Fin 32), t.rampEntry r = some e → d ∈ e.gates →
    s.ramps[r].state = .moving → s.ramps[r].program = .lower → s.doors[d].state = .opened →
    t.doors[d].state ≠ .opened → t.ramps[r].state = .held ∧ t.ramps[r].holdCause = .gate

/-- The zone unit has been told in RUNNING that the door unit's demands are cleared: it takes the doors' states
afresh, and a zone that is sealed places its demands again (R103, R134). -/
def demandsCleared (s t : State) : Prop :=
  s.part = .running → ∀ z : Fin 8, t.zones[z].doorStates = t.freshDoorStates z ∧
    (s.zones[z].state.isSealed = true →
      t.zones[z].state.isSealed = true ∧ t.zones[z].placementPending = true ∧
        t.zones[z].startRequests = [] ∧ t.zones[z].staggerTimer = none ∧
        t.inFlight (.zoneDemand z) = true)

/-- The zones at adoption of a zone table and at entry to RUNNING, with the last door ends that are kept, and the
call unit's copy of their states (R128, R143, R146). -/
def zonesAfresh (lastEnd : Fin 8 → Option (Fin 32 × OrderOutcome)) (t : State) : Prop :=
  ∀ z : Fin 8, t.zones[z] = t.zoneAtStart z (lastEnd z) ∧
    t.callUnit.zoneCopy[z] = t.zones[z].toldAtStart

/-- The zones at adoption of a station table: the points and the alarm judged afresh; a zone that is not SEALED
keeps its state, its seal cause, its card and its alert timer, but where its alarm has become present: a CLEAR
zone with an alert confirm time is then in ALERT, its alert timer started (R128, R130). -/
def zonesOnNewStations (s t : State) : Prop :=
  ∀ z : Fin 8, t.zones[z].points = (t.zoneAtStart z none).points ∧
    t.zones[z].alarm = (t.zoneAtStart z none).alarm ∧
    (s.zones[z].state ≠ .sealed → s.zones[z].alarm = true ∨ t.zones[z].alarm = false →
      t.zones[z].state = s.zones[z].state ∧ t.zones[z].sealCause = s.zones[z].sealCause ∧
        t.zones[z].card = s.zones[z].card ∧ t.zones[z].alertTimer = s.zones[z].alertTimer) ∧
    (s.zones[z].state = .clear → s.zones[z].alarm = false → t.zones[z].alarm = true →
      (t.zoneEntry z).confirmTime ≠ 0 →
      t.zones[z].state = .alert ∧ t.zones[z].sealCause = s.zones[z].sealCause ∧
        t.zones[z].card = s.zones[z].card ∧
        t.zones[z].alertTimer = startTimer t.clock (1000 * (t.zoneEntry z).confirmTime))

/-- No call waits for its channels and none is to hear of a zone that seals, so that an adoption starts, cuts and
ends no call at the start test. -/
def State.callsRest (s : State) : Prop :=
  (∀ j : Fin 16, s.slots[j].state ≠ .queued) ∧ ∀ z, s.inFlight (.sealingNotice z) = false

/-- The calls at adoption of a zone table, while each PLAYING call keeps a zone that is neither done nor silent:
a channel whose call station has changed falls silent, with its zone in its holder's silent set; all else of the
slots and channels is kept (R160). -/
def callsOnNewZones (s t : State) : Prop :=
  s.callsRest →
    (∀ j : Fin 16, s.slots[j].state = .playing → ∃ z : Fin 8, hasZone s.slots[j].zones z = true ∧
      s.channels[z].progress ≠ .done ∧ s.channels[z].progress ≠ .silent ∧
      ∀ i, s.fallsSilent t.tables z i = false) →
    (∀ z : Fin 8, t.channels[z] =
      if (List.finRange 16).any (s.fallsSilent t.tables z) then
        { s.channels[z] with progress := .silent, playTimer := none }
      else s.channels[z]) ∧
    ∀ j : Fin 16, t.slots[j] =
      (List.finRange 8).foldl (fun r z =>
        if s.fallsSilent t.tables z j then
          { r with silent := r.silent ||| zoneBit z, silentCount := r.silentCount + 1 }
        else r) s.slots[j]

/-- The call unit at entry to RUNNING: every slot and channel at its start values, but for the tokens (R146). -/
def callsStarted (s t : State) : Prop :=
  t.slots = Vector.replicate 16 SlotRecord.start ∧ t.callUnit.nextArrival = 0 ∧
    ∀ z : Fin 8, t.channels[z] = { ChannelRecord.start with token := s.channels[z].token }

/-! ### Images and the pending SET list -/

/-- A change of the station's composed image makes a queue request: the kind takes SETs, and the station is
ABSENT, PRESENT, or LOST with rejoin pending (R37). -/
def State.sendsTo (s : State) (i : Fin 48) : Prop :=
  (s.stationKind i).takesSets = true ∧
    (s.stations[i].state = .absent ∨ s.stations[i].state = .present ∨
      (s.stations[i].state = .lost ∧ s.stations[i].rejoinPending = true))

/-- The entry a queue request asks for: URGENT if the contribution was, and always at a station that rejoins
(R34, R37). -/
def State.requestFor (s : State) (i : Fin 48) (image : BitVec 32) (urgent : Bool) : PendingSet :=
  ⟨i, image, urgent || s.stations[i].state == .lost⟩

/-- A list after a queue request (R16): the request is appended at the tail, or replaces the image of the
station's entry, which keeps its place and is URGENT if it was or if the request is. -/
def requestTaken (l : List PendingSet) (e : PendingSet) (l' : List PendingSet) : Prop :=
  ((∀ x ∈ l, x.station ≠ e.station) → l' = l ++ [e]) ∧
    ∀ a x b, l = a ++ x :: b → x.station = e.station → (∀ y ∈ a, y.station ≠ e.station) →
      l' = a ++ { e with urgent := x.urgent || e.urgent } :: b

/-- A station's composed image has become another, and the change is on the pending SET list where R37 has it
requested: with the new image, and URGENT if the contribution or the former entry was. -/
def imageSent (i : Fin 48) (image : BitVec 32) (urgent : Bool) (s t : State) : Prop :=
  t.stations[i].image = image ∧
    (image ≠ s.stations[i].image → s.sendsTo i → t.line.entry? i =
      some
        { s.requestFor i image urgent with
          urgent := (s.requestFor i image urgent).urgent || (s.line.entry? i).any (·.urgent) })

/-- The one thing that becomes of the composed images and the line's lists: a station's image becomes another,
and a change of it is requested where R37 has it so. -/
def sendsOnly (i : Fin 48) (image : BitVec 32) (urgent : Bool) (s t : State) : Prop :=
  (∀ j : Fin 48, t.stations[j].image = if j = i then image else s.stations[j].image) ∧
    t.line.owed = s.line.owed ∧
    (image ≠ s.stations[i].image → s.sendsTo i →
      requestTaken s.line.pending (s.requestFor i image urgent) t.line.pending) ∧
    (image = s.stations[i].image ∨ ¬ s.sendsTo i → t.line.pending = s.line.pending)

/-- The station is of kind RAMP, and a ramp's and no other ramp's, as R58 and R190 have it of every adopted entry
of a part that runs. -/
def State.isRampStation (s : State) (i : Fin 48) (r : Fin 4) : Prop :=
  s.stationKind i = .ramp ∧ s.rampsOn i = [r]

/-- The station is of kind PACK, and a pack's and no other pack's (R41, R190). -/
def State.isPackStation (s : State) (i : Fin 48) (p : Fin 2) : Prop :=
  s.stationKind i = .pack ∧ s.packsOn i = [p]

/-- The station is of kind CALL, and a zone's call station and no other zone's (R126, R190). -/
def State.isCallStation (s : State) (i : Fin 48) (z : Fin 8) : Prop :=
  s.stationKind i = .call ∧ s.zonesCalling i = [z]

/-! ### Calls -/

/-- A call as it takes its slot (R150). -/
def SlotRecord.queuedAt (c : SlotRecord) (arrival : Word) : SlotRecord :=
  { c with
    state := .queued, arrival := arrival, repeatsDone := 0, silent := 0, silentCount := 0
    gapTimer := none }

/-- A QUEUED call that a new call may merge into (R149). -/
def State.mergesWith (s : State) (c : SlotRecord) (i : Fin 16) : Prop :=
  s.slots[i].state = .queued ∧ s.slots[i].clip = c.clip ∧ s.slots[i].zones = c.zones

/-- The slot is the lowest-numbered FREE one. -/
def State.firstFree (s : State) (i : Fin 16) : Prop :=
  s.slots[i].state = .free ∧ ∀ j, j < i → s.slots[j].state ≠ .free

/-- The call holds a channel of one of these zones. -/
def State.holdsIn (s : State) (zones : BitVec 8) (j : Fin 16) : Bool :=
  (List.finRange 8).any fun z => hasZone zones z && s.channels[z].holder == some j

/-- The zone's call station stands in the zone table and is neither LOST nor DISABLED (R154). -/
def State.canPlay (s : State) (z : Fin 8) : Prop :=
  ∃ i, (s.zoneEntry z).callStation = some i ∧ s.lostOrDisabled i = false

/-- A channel that has become free by a STOP (R153, R157, R158). -/
def ChannelRecord.stopped (c : ChannelRecord) : ChannelRecord :=
  { c with holder := none, progress := .idle, playTimer := none, contribution := .stop }

/-- A channel that plays a call's repeat from now on (R154). -/
def ChannelRecord.plays (c : ChannelRecord) (holder : Fin 16) (call : SlotRecord) (now : Clock) :
    ChannelRecord :=
  { c with
    holder := some holder, token := c.token + 1, progress := .sent, playTimer := startTimer now 120000
    contribution := .play call.clip call.chime (c.token + 1) }

/-- A call has been stopped: its slot is FREE, no channel is its own, and its card has ended CANCELLED with its
repeats done; while no other call waits, the channels it held are free with STOP, which is sent URGENT to their
call stations, and no other slot and no other channel has changed (R36, R37, R158). -/
def stopsCall (i : Fin 16) (s t : State) : Prop :=
  t.slots[i] = SlotRecord.start ∧ (∀ z : Fin 8, t.channels[z].holder ≠ some i) ∧
    (∀ d, s.slots[i].card = some d → s.cardsSound → t.endedWith d .cancelled s.slots[i].repeatsDone) ∧
    ((∀ j : Fin 16, j ≠ i → s.slots[j].state ≠ .queued) →
      (∀ j, j ≠ i → t.slots[j] = s.slots[j]) ∧
      (∀ z : Fin 8, t.channels[z] =
        if s.channels[z].holder = some i then s.channels[z].stopped else s.channels[z]) ∧
      ∀ (z : Fin 8) (x : Fin 48), s.channels[z].holder = some i → (s.zoneEntry z).callStation = some x →
        s.isCallStation x z → imageSent x 2 true s t)

/-! ### The watch unit -/

/-- The record a channel's fields name matches their test as it stands (R164, R168). -/
def State.matchesNow (s : State) (w : WatchRecord) : Bool :=
  match w.record? with
  | some id => w.matches (s.subjectValue w.subject id)
  | none => false

/-- The action card of this number is POSTED or TAKEN (R167). -/
def State.actionInUse (s : State) (number : Word) : Bool :=
  (List.finRange 8).any fun n => number == BitVec.ofNat 16 n.val &&
    (s.cardState (actionCard n) == .posted || s.cardState (actionCard n) == .taken)

/-! ### The end of an attempt -/

/-- The outcome other than ANSWERED with which a command ends the attempt under way, and the time that passes
with it: the window closes, or an answer is judged NAKED or CORRUPT, or is a second WAIT, or a WAIT after a
removal request (R8 to R10, R19). -/
def State.attemptFails (s : State) (tr : Transaction) (c : Instr) (o : LineOutcome) (ms : Clock) : Prop :=
  s.line.transaction = some tr ∧
    ((c = .noAnswer ∧ s.line.mode = .listening ∧ o = .noAnswer ∧ ms = 0) ∨
      ∃ rx, c = .answerReceived rx ms ∧ (s.line.mode = .listening ∨ s.line.mode = .receiving) ∧
        rx.beginsInWindow = true ∧
        ∃ j, j = judgeAnswer (s.stationKind tr.station) tr (receiveFrame rx) ∧
          ((j = .naked ∧ o = .naked) ∨ (j = .corrupt ∧ o = .corrupt) ∨
            (j = .waited ∧ (tr.waited = true ∨ tr.removal = true) ∧ o = .noAnswer)))

/-- A station's record after a final outcome other than ANSWERED, but for its image and sequence number (R27,
R28): the third miss takes it to LOST, and a rejoin is given up. -/
def StationRecord.missed (r : StationRecord) : StationRecord :=
  match r.state with
  | .disabled => r
  | .absent | .present =>
    if r.missCount + 1 < 3 then { r with missCount := r.missCount + 1 }
    else
      { r with
        state := .lost, missCount := 3, candidate := none, repeatCount := 0, reportAwaited := true }
  | .lost => if r.rejoinPending then { r with rejoinPending := false, missCount := 3 } else r

/-- That outcome takes the station out of the line's care by a removal request: it becomes LOST, or its rejoin
is given up (R28). -/
def StationRecord.removedByMiss (r : StationRecord) : Bool :=
  match r.state with
  | .disabled => false
  | .absent | .present => decide (3 ≤ r.missCount + 1)
  | .lost => r.rejoinPending

/-! ### The polls -/

/-- The k-th station from the roster position on, with the cycle count there (R21). -/
def State.rosterStop (s : State) (k : Nat) : Fin 48 × Fin 4 :=
  (Fin.ofNat 48 (s.line.rosterPos.val + k), Fin.ofNat 4 (s.line.cycle.val + (s.line.rosterPos.val + k) / 48))

/-- A station that a roster visit polls at a cycle count (R21). -/
def State.isVisited (s : State) (x : Fin 48 × Fin 4) : Prop :=
  s.stationKind x.1 ≠ .none ∧
    (s.stations[x.1].state = .absent ∨ s.stations[x.1].state = .present ∨
      (s.stations[x.1].state = .lost ∧ x.2 = 0))

/-- A PRESENT station that serves a ramp in MOVING (R22). -/
def State.isFast (s : State) (i : Fin 48) : Prop :=
  s.stations[i].state = .present ∧
    ∃ (r : Fin 4) (e : RampEntry), s.rampEntry r = some e ∧ e.station = i ∧ s.ramps[r].state = .moving

/-- The one attempt of a POLL (R5, R11). -/
def pollOf (i : Fin 48) : Transaction :=
  { station := i, isSet := false, attempts := 1, sequence := 0, image := 0
    frame := frameBytes (stationAddress i) kindPoll [], waited := false, removal := false
    discard := false, last := .noAnswer }

/-! ### Events -/

/-- The most events a command is: itself, and the hand-overs it may take early (LOG 8). These are the grant
notices of the packs that fail at a notice of their station, at the loss of it or at a start limit, or of the
pack whose preemption demand comes, and at ZONE RELEASE the zone hold and the demand set. LOAD TABLE, START
DECK and the resets rewrite records whether they change or not, and are left out where this is used. -/
def eventsAtMost : Instr → Nat
  | .answerReceived _ _ | .noAnswer | .stationDisable | .zoneRelease => 3
  | .pumpStartLimitExpiry _ | .preemptionDemand _ _ => 2
  | _ => 1

/-! ### What commands touch -/

/-- What the end of every command that changes records may touch: the idle line begins a transaction, image
records are rewritten, watch channels trip and post action cards. -/
def endPieces : List Piece :=
  [.attention, .shadow, .intake, .lineCourse, .stationSequences, .watch, .counts]

/-- What the end of a card touches beside that (R183). -/
def cardPieces : List Piece := [.completed, .mem]

/-- What a ramp that stops touches: its record, its station's image, its pack and its card. -/
def holdPieces : List Piece := cardPieces ++ [.lineList, .stationImages, .packs, .ramps, .handovers]

/-- What a call touches: slots, channels, the call stations' images and its card. -/
def callPieces : List Piece := cardPieces ++ [.lineList, .stationImages, .slots, .channels]

/-- What work on doors and ramps may touch, with the zones, calls and packs that take part. -/
def deckPieces : List Piece :=
  holdPieces ++ [.doors, .doorUnit, .zones, .slots, .channels, .callUnit]

/-- The command ends a card with an outcome and does nothing else: of exchange memory only the card's outcome
words change, of the board cards only this one's state, and with the line at work or at rest (`lineRests`, an
invariant) nothing but cards, memory and the flags. -/
def endsOnly (c : CardId) (o : OrderOutcome) (detail : Nat) (s t : State) : Prop :=
  SameBut (endPieces ++ cardPieces) s t ∧ t.endedWith c o detail ∧
    (∀ a, ¬ isOutcomeWord c a → t.mem.read a = s.mem.read a) ∧
    t.cards.completed = s.cards.completed + 1 ∧ t.hasFlag .orders = true ∧
    (∀ b, isBoardCard b = true → b ≠ c → t.cardState b = s.cardState b) ∧
    (s.lineRests → SameBut ([.attention, .shadow, .intake] ++ cardPieces) s t)

/-! ### Completion -/

/-- The command answers a next state, of which something holds. -/
def completes (c : Instr) (s : State) (p : State → Prop) : Prop := ∃ t, exec c s = .next t ∧ p t

end Sys2Proof.Machine
end

