-- ==== Sys2Proof/Certificates/Slice0/Obligations.lean ====
section
/-! DEFINITION. The statements for the provers. A command's statement says that it answers a next state
(`completes`), what that state holds, and which pieces of the state it leaves as they are (`SameBut`). -/

open Sys2Proof Sys2Proof.Machine

/-! ### The machine -/

/-- A step takes the command at the front of the queue and runs it on the state with the queue's rest. -/
def Obligations.StepRunsTheCommandInFront : Prop :=
  ∀ (c : Instr) (rest : List Instr) (s : State),
    step { s with pending := c :: rest } = exec c { s with pending := rest }

/-- On an empty queue the part does its own work, and with none a millisecond passes. The model's choice (LOG
3). -/
def Obligations.EmptyQueueDoesOwnWork : Prop :=
  ∀ s : State, s.pending = [] →
    (∀ c, s.ownNext = some c → step s = exec c s) ∧
      (s.ownNext = none → step s = .next { s with clock := s.clock + 1 })

/-- State.reset is the part in STARTING with the values R193 and the chapters' reset rules give. Power-on
reset puts every field at those values and latches the straps (R1); STARTING ends in UNCONFIGURED with
ATTENTION cleared (R174). The model's choices: the pins' levels at State.reset (LOG 2), that outside STARTING
its end changes nothing (LOG 4), the doors' arrivals (LOG 14), that no hand-over is in flight (LOG 25), flags
and counts within STARTING (LOG 29), and the start values no rule gives (LOG 34). The queue is the model's own
and is kept. -/
def Obligations.ResetIsPowerOn : Prop :=
  (State.reset.part = .starting ∧ State.reset.clock = 0 ∧
    State.reset.pins = ⟨false, false, false, 0, false⟩ ∧ State.reset.mem = [] ∧
    State.reset.tables = Tables.start ∧ State.reset.enables = 0 ∧ State.reset.attention = 0 ∧
    State.reset.cards = ⟨Vector.replicate 40 .free, [], 0⟩ ∧ State.reset.misuse = ⟨0, .none⟩ ∧
    State.reset.line = Line.start ∧ State.reset.stations = Vector.replicate 48 StationRecord.start ∧
    State.reset.packs = Vector.replicate 2 PackRecord.start ∧
    State.reset.ramps = Vector.replicate 4 RampRecord.start ∧
    State.reset.doors = Vector.replicate 32 DoorRecord.start ∧
    State.reset.doorUnit = DoorUnit.start ∧
    State.reset.zones = Vector.replicate 8 ZoneRecord.start ∧
    State.reset.slots = Vector.replicate 16 SlotRecord.start ∧
    State.reset.channels = Vector.replicate 8 ChannelRecord.start ∧
    State.reset.callUnit = CallUnit.start ∧ State.reset.watch = Vector.replicate 8 WatchRecord.start ∧
    State.reset.handovers = [] ∧ State.reset.changed = [] ∧ (∀ id, State.reset.changeCount id = 0) ∧
    ∀ a : BitVec 14, State.reset.readWord a = 0) ∧
  (∀ (a b p : Bool) (s : State), exec (.powerOnReset a b p) s =
    .next { State.reset with
      pending := s.pending
      pins := { strapA := a, strapB := b, stopPin := p, stopSince := 0, stopLevel := false } }) ∧
  (∀ s : State, s.part = .starting →
    exec .startingComplete s = .next { s with part := .unconfigured, attention := 0 }) ∧
  ∀ s : State, s.part ≠ .starting → exec .startingComplete s = .next s

/-- The invariants hold at reset. -/
def Obligations.ResetMeetsTheInvariants : Prop :=
  State.reset.memoryOk = true ∧ State.reset.countsEven ∧ State.reset.lineRests ∧ State.reset.listOnce ∧
    State.reset.rejoinsLost ∧ State.reset.cardsSound ∧ State.reset.outputsFollow ∧
    State.reset.imagesFollow

/-- Every step keeps stored memory in its canonical form and free of words that are views. -/
def Obligations.StepKeepsMemoryOk : Prop :=
  ∀ s t : State, s.memoryOk = true → step s = .next t → t.memoryOk = true

/-- Every step leaves every change count even (R186). -/
def Obligations.StepKeepsCountsEven : Prop :=
  ∀ s t : State, s.countsEven → step s = .next t → t.countsEven

/-- Every step leaves an idle line with nothing to send (R20), the pending SET list with at most one entry for
each station (R16), and a rejoin pending at LOST stations alone (R28, R34, R38). -/
def Obligations.StepKeepsTheLineAtWork : Prop :=
  ∀ s t : State, step s = .next t →
    (s.lineRests → t.lineRests) ∧ (s.listOnce → t.listOnce) ∧ (s.rejoinsLost → t.rejoinsLost)

/-- Every step keeps the cards sound: the intake list is the list of the POSTED cards, each once, over
takings, the CANCEL of a POSTED card and the posts of action cards as over the host's writes; and every card
that a record holds is TAKEN and held by no other record (R117, R180 to R182). -/
def Obligations.StepKeepsTheCardsSound : Prop :=
  ∀ s t : State, s.cardsSound → step s = .next t → t.cardsSound

/-- The outputs of a door by its kind, its state and its demand, and the change of outputs that is URGENT;
after every step the outputs of every fitted door are those of the table (R104). The image of a station by its
kind, from the contributions of its owner (R6, R36): for a DOOR station four bits for each point, for a RAMP
station the valves, for a PACK station pump run, for a CALL station action, clip, chime flag and token, 0 where
no record drives an output; after every step the composed image of every station, in every station state, is
that of the contributions. That clip, chime flag and token are 0 beside NONE and STOP is the model's reading
(LOG 13). -/
def Obligations.OutputsFollowTheDoors : Prop :=
  (∀ (k : DoorKind) (r : DoorRecord),
    ((doorOutputs k r).closeDrive = true ↔ k ≠ .springFire ∧ r.state = .closing) ∧
    ((doorOutputs k r).openDrive = true ↔ k ≠ .springFire ∧ r.state = .opening) ∧
    ((doorOutputs k r).warning = true ↔ r.state = .warning ∨ r.state = .closing ∨
      r.state = .obstructed ∨ (r.state = .waiting ∧ r.demand = .close)) ∧
    (k ≠ .springFire → (doorOutputs k r).magnet = false) ∧
    (k = .springFire → r.state ≠ .waiting → r.state ≠ .obstructed →
      ((doorOutputs k r).magnet = true ↔ r.state = .opened ∨ r.state = .ajar ∨ r.state = .warning ∨
        r.state = .opening ∨ (r.state = .unknown ∧ ¬ (r.demand = .close ∧ r.origin = .zone))))) ∧
  (∀ before after : DoorOutputs, outputsUrgent before after = true ↔
    (before.closeDrive = false ∧ after.closeDrive = true) ∨
      (before.magnet = true ∧ after.magnet = false)) ∧
  (∀ s t : State, s.outputsFollow → step s = .next t → t.outputsFollow) ∧
  (∀ (i : Fin 48) (s : State),
    (s.stationKind i = .door →
      (∀ point k : Fin 4, (composeImage s i).getLsbD (4 * point.val + k.val) = true ↔
        ∃ d e, s.doorEntry d = some e ∧ e.station = i ∧ e.point = point ∧
          [s.doors[d].outputs.closeDrive, s.doors[d].outputs.openDrive, s.doors[d].outputs.warning,
            s.doors[d].outputs.magnet][k.val]! = true) ∧
      ∀ n, 16 ≤ n → (composeImage s i).getLsbD n = false) ∧
    (∀ r, s.isRampStation i r → composeImage s i = s.ramps[r].valves.setWidth 32) ∧
    (∀ p, s.isPackStation i p → composeImage s i = if s.packs[p].pumpRun then 1 else 0) ∧
    (∀ z, s.isCallStation i z → imageBytes .call (composeImage s i) =
      match s.channels[z].contribution with
      | .none => [0, 0, 0, 0]
      | .play clip chime token => [1, clip, if chime then 1 else 0, token]
      | .stop => [2, 0, 0, 0]) ∧
    (s.stationKind i = .sensor ∨ s.stationKind i = .none ∨
        (s.stationKind i = .ramp ∧ s.rampsOn i = []) ∨
        (s.stationKind i = .pack ∧ s.packsOn i = []) ∨
        (s.stationKind i = .call ∧ s.zonesCalling i = []) →
      composeImage s i = 0)) ∧
  ∀ s t : State, s.imagesFollow → step s = .next t → t.imagesFollow

/-- Every command but power-on reset and a host write leaves every stored word of exchange memory as it is,
but for the outcome words of cards that have ended (R183, R188, R196). -/
def Obligations.MemoryChangesOnlyAtEndedCards : Prop :=
  ∀ (c : Instr) (s t : State), exec c s = .next t →
    (∀ a b p, c ≠ .powerOnReset a b p) → (∀ a v, c ≠ .hostWrite a v) → MemorySameButEnded s t

/-- A flag that is set stays set but at a write to ATTENTION, the restart command, power-on reset and the end
of STARTING (R175). -/
def Obligations.FlagsFallOnlyByTheirCommands : Prop :=
  ∀ (c : Instr) (s t : State), exec c s = .next t →
    (match c with
      | .attentionWrite _ | .restartCommand _ | .powerOnReset _ _ _ | .startingComplete => False
      | .portControlEnables v => hasRestartCode v = false
      | _ => True) → FlagsStay s t

/-- Rewrites of image records (R186, R165). An event rewrites exactly the records of which a shown field has
changed in it, each once: its count advances by 2. A record is noted when an operation leaves it showing other
fields, so that a field that passes through a value and out of it gives one rewrite too (LOG 9). Over a command
a record shows the same fields if it is not rewritten, and its category's flag is set if it is (R175). It is
rewritten once at most, but at the commands that take hand-overs early, as events of their own (LOG 8): there
once at most in each event, of which there are three at most. A channel's record is rewritten at each change of
it (R172): in one event twice at most, at the rewrite of the record it watches and, for A of a pair, where B
clears its A-seen. Left out are the commands that rewrite records whether they change or not. -/
def Obligations.EveryChangeIsOneRewrite : Prop :=
  (∀ (act : State → State) (id : RecordId) (s u : State), (∀ k, id ≠ .watch k) →
    u = act { s with changed := [] } →
    (asEvent onChange act s).changeCount id =
        (if id ∈ u.changed then u.changeCount id + 2 else u.changeCount id) ∧
      (id ∈ u.changed → (asEvent onChange act s).hasFlag id.flag = true) ∧
      (asEvent onChange act s).changed = s.changed) ∧
  (∀ (ids : List RecordId) (id : RecordId) (s t : State), id ∈ (noteChanged ids s t).changed ↔
    id ∈ t.changed ∨ (id ∈ ids ∧ t.view id ≠ s.view id)) ∧
  ∀ (c : Instr) (s t : State), exec c s = .next t →
    (match c with
      | .restartCommand _ | .powerOnReset _ _ _ | .loadTable | .startDeck => False
      | .portControlEnables v => hasRestartCode v = false
      | _ => True) →
    (∀ id, (∀ k, id ≠ .watch k) →
      ∃ n ≤ eventsAtMost c, t.changeCount id = s.changeCount id + BitVec.ofNat 16 (2 * n) ∧
        (n = 0 → t.view id = s.view id) ∧ (n ≠ 0 → t.hasFlag id.flag = true)) ∧
    ∀ k, ∃ n ≤ 2 * eventsAtMost c,
      t.changeCount (.watch k) = s.changeCount (.watch k) + BitVec.ofNat 16 (2 * n) ∧
      (n = 0 → t.view (.watch k) = s.view (.watch k)) ∧ (n ≠ 0 → t.hasFlag .watch = true)

/-- The queue, the port's enables, the adopted tables, the part state, the pins, the misuse words, the deck
clock and the station records (their images and sequence numbers apart) change by the commands named only, and
between commands no change waits to be rewritten (LOG 9).
Which commands move the deck clock is the model's choice: an expiry and a filter time by what they wait for
(LOG 5), an answer by the time it carries (LOG 6), and no other takes time. -/
def Obligations.QuietStateChangesOnlyByItsCommands : Prop :=
  ∀ (c : Instr) (s t : State), exec c s = .next t →
    t.pending = s.pending ∧
    (match c with
      | .powerOnReset _ _ _ | .restartCommand _ | .portControlEnables _ => True
      | _ => t.enables = s.enables) ∧
    (match c with
      | .powerOnReset _ _ _ | .restartCommand _ | .portControlEnables _ | .loadTable => True
      | _ => t.tables = s.tables) ∧
    (match c with
      | .powerOnReset _ _ _ | .restartCommand _ | .portControlEnables _ | .startingComplete
      | .startDeck => True
      | _ => t.part = s.part) ∧
    (match c with
      | .powerOnReset _ _ _ | .deckStopPinChange _ | .deckStopAsserted | .deckStopReleased => True
      | _ => t.pins = s.pins) ∧
    (match c with
      | .powerOnReset _ _ _ | .hostWrite _ _ | .post _ | .withdrawal _ => True
      | _ => t.misuse = s.misuse) ∧
    (match c with
      | .powerOnReset _ _ _ | .answerReceived _ _ | .deckStopAsserted | .deckStopReleased
      | .durationTimerExpiry _ | .stageLimitExpiry _ | .blankTimerExpiry _ | .leadTimerExpiry _ | .stall _
      | .pumpStartLimitExpiry _ | .recoveryDwellExpiry _ | .parkHoldExpiry _ | .warningTimerExpiry _
      | .motionTimerExpiry _ | .retryTimerExpiry _ | .packWaitTimerExpiry _ | .alertTimerExpiry _
      | .staggerTimerExpiry _ | .playLimitTimerExpiry _ | .gapTimerExpiry _ => True
      | _ => t.clock = s.clock) ∧
    (match c with
      | .powerOnReset _ _ _ | .restartCommand _ | .portControlEnables _ | .loadTable | .stationEnable
      | .stationDisable | .answerReceived _ _ | .noAnswer => True
      | _ => Piece.stationRest.same s t) ∧
    match c with
    | .powerOnReset _ _ _ => t.changed = []
    | _ => t.changed = s.changed

/-! ### The port -/

/-- The port registers: what a write does and what a read returns (R174, R175). PORT STATUS shows the part state
in bits 1-0 and the intake length in bits 13-8, and its other bits read 0. A PORT CONTROL word with the restart
code is the restart command's (LOG 24). -/
def Obligations.PortRegisters : Prop :=
  (∀ (v : Word) (s : State), exec (.attentionWrite v) s =
    .next { s with attention := s.attention &&& v.setWidth 10 }) ∧
  (∀ (r : ReadOnlyRegister) (v : Word) (s : State), exec (.registerWriteNoEffect r v) s = .next s) ∧
  (∀ (v : Word) (s : State), hasRestartCode v = false →
    exec (.portControlEnables v) s = .next { s with enables := v.setWidth 10 }) ∧
  (∀ (v : Word) (s : State), hasRestartCode v = true →
    exec (.portControlEnables v) s = exec (.restartCommand (v.setWidth 12)) s) ∧
  ∀ s : State, s.readPort 0 = 0x4821 ∧ s.readPort 1 = s.enables.setWidth 16 ∧
    s.readPort 2 = s.attention.setWidth 16 ∧
    ((s.readPort 3).extractLsb' 0 2).toNat =
      (match s.part with
        | .starting => 0
        | .unconfigured => 1
        | .running => 2) ∧
    (s.readPort 3).extractLsb' 2 6 = 0 ∧
    (s.cards.intake.length ≤ 40 →
      ((s.readPort 3).extractLsb' 8 6).toNat = s.cards.intake.length ∧
        (s.readPort 3).extractLsb' 14 2 = 0)

/-- The attention line is asserted while a flag is both set and enabled (R176). -/
def Obligations.AttentionLineFollowsFlagsAndEnables : Prop :=
  (∀ s : State, s.attentionLine = true ↔
    ∃ f : Flag, s.hasFlag f = true ∧ s.enables.getLsbD f.bit = true) ∧
  (∀ (s : State) (f : Flag) (v : Word), s.hasFlag f = true → v.getLsbD f.bit = true →
    hasRestartCode v = false →
    completes (.portControlEnables v) s fun t => t.attentionLine = true) ∧
  (∀ (s : State) (v : Word),
    (∀ f : Flag, s.hasFlag f = true → s.enables.getLsbD f.bit = true → v.getLsbD f.bit = false) →
    completes (.attentionWrite v) s fun t => t.attentionLine = false) ∧
  ∀ (a b p : Bool) (s : State),
    completes (.powerOnReset a b p) s fun t => t.attentionLine = false

/-- The restart command returns the part to UNCONFIGURED with every block at its start values, rewrites every
image record, and leaves ORDERS alone set; the channels keep their tokens (R146, R187, R194). It ends every
POSTED and TAKEN card RESTARTED, and leaves the others and every other word of exchange memory as they are
(R187). In STARTING only the enables are taken (R174). The model's choices: the doors' arrivals (LOG 14), that
no hand-over stays in flight (LOG 25), and the start values no rule gives (LOG 34). -/
def Obligations.RestartReturnsToUnconfigured : Prop :=
  ((∀ (low : BitVec 12) (s : State), s.part ≠ .starting →
    completes (.restartCommand low) s fun t =>
      t.part = .unconfigured ∧ t.enables = low.setWidth 10 ∧ t.attention = Flag.orders.mask ∧
      t.tables = Tables.start ∧ t.line = Line.start ∧
      t.stations = Vector.replicate 48 StationRecord.start ∧
      t.packs = Vector.replicate 2 PackRecord.start ∧ t.ramps = Vector.replicate 4 RampRecord.start ∧
      t.doors = Vector.replicate 32 DoorRecord.start ∧ t.doorUnit = DoorUnit.start ∧
      t.zones = Vector.replicate 8 ZoneRecord.start ∧ t.slots = Vector.replicate 16 SlotRecord.start ∧
      t.callUnit = CallUnit.start ∧ t.watch = Vector.replicate 8 WatchRecord.start ∧
      t.handovers = [] ∧ t.cards.intake = [] ∧
      (∀ z : Fin 8, t.channels[z] = { ChannelRecord.start with token := s.channels[z].token }) ∧
      (∀ id, t.changeCount id = s.changeCount id + 2) ∧
      t.clock = s.clock ∧ t.pins = s.pins ∧ t.misuse = s.misuse ∧ t.pending = s.pending) ∧
  ∀ (low : BitVec 12) (s : State), s.part = .starting →
    exec (.restartCommand low) s = .next { s with enables := low.setWidth 10 }) ∧
  ∀ (low : BitVec 12) (s : State), s.part ≠ .starting → s.memoryOk = true →
    completes (.restartCommand low) s fun t =>
      (∀ c, s.cardState c = .posted ∨ s.cardState c = .taken →
        t.cardState c = .refused ∧ t.endedWith c .restarted 0) ∧
      (∀ c, s.cardState c ≠ .posted → s.cardState c ≠ .taken → t.cardState c = s.cardState c) ∧
      ∀ a, (∀ c, isOutcomeWord c a → s.cardState c ≠ .posted ∧ s.cardState c ≠ .taken) →
        t.mem.read a = s.mem.read a

/-- A host write outside the card area: in STARTING it has no effect, in the header and the image area it is
discarded as misuse, and in the table area and in plain memory it lands (R173, R177, R179, R196). A host write
that lands on a stored word is read back there, and every other word of exchange memory reads as before. -/
def Obligations.HostWriteByArea : Prop :=
  ((∀ (a : BitVec 14) (v : Word) (n : Fin 32) (s : State), s.part = .starting →
    exec (.hostWrite a v) s = .next s ∧ exec (.post n) s = .next s ∧
      exec (.withdrawal n) s = .next s) ∧
  (∀ (a : BitVec 14) (v : Word) (s : State), s.part ≠ .starting →
    a.toNat < 0x0040 ∨ (0x1000 ≤ a.toNat ∧ a.toNat < 0x17A0) →
    exec (.hostWrite a v) s =
      .next { s with
        attention := s.attention ||| Flag.misuse.mask
        misuse := ⟨a.setWidth 16, .partArea⟩ }) ∧
  ∀ (a : BitVec 14) (v : Word) (s : State), s.part ≠ .starting →
    (0x02C0 ≤ a.toNat ∧ a.toNat < 0x1000) ∨ 0x17A0 ≤ a.toNat →
    exec (.hostWrite a v) s = .next { s with mem := s.mem.write a.toNat v }) ∧
  ∀ (a : BitVec 14) (v : Word) (s : State), s.memoryOk = true → s.part ≠ .starting →
    isView a.toNat = false →
    (∀ c k, cardAt a.toNat = some (c, k) → s.cardState c ≠ .taken) →
    completes (.hostWrite a v) s fun t =>
      t.readWord a = v ∧ ∀ b : BitVec 14, b ≠ a → t.readWord b = s.readWord b

/-- Host writes to cards are judged against the shadow, which the state word always equals: the table of R178,
with the posts and withdrawals of R180. -/
def Obligations.CardWritesAreJudgedByTheShadow : Prop :=
  (∀ (c : CardId) (s : State), s.part ≠ .starting →
    s.sharedWord (cardAddress c 0) = (s.cardState c).code) ∧
  (∀ (n : Fin 32) (s : State), s.part ≠ .starting →
    exec (.post n) s = exec (.hostWrite (BitVec.ofNat 14 (cardAddress (boardCard n) 0)) 1) s ∧
    exec (.withdrawal n) s = exec (.hostWrite (BitVec.ofNat 14 (cardAddress (boardCard n) 0)) 0) s ∧
    (s.cardState (boardCard n) = .free → exec (.post n) s = .next
      { s with cards := { s.cards with
          shadow := s.cards.shadow.set (boardCard n) .posted
          intake := s.cards.intake ++ [boardCard n] } }) ∧
    (s.cardState (boardCard n) = .posted → exec (.withdrawal n) s = .next
      { s with cards := { s.cards with
          shadow := s.cards.shadow.set (boardCard n) .free
          intake := s.cards.intake.filter (· != boardCard n) } })) ∧
  (∀ (c : CardId) (v : Word) (s : State), s.part ≠ .starting →
    exec (.hostWrite (BitVec.ofNat 14 (cardAddress c 0)) v) s = .next
      (if v = 1 ∧ s.cardState c = .free ∧ c.val < 32 then
        { s with cards := { s.cards with
            shadow := s.cards.shadow.set c .posted, intake := s.cards.intake ++ [c] } }
      else if v = 0 ∧ s.cardState c = .posted ∧ c.val < 32 then
        { s with cards := { s.cards with
            shadow := s.cards.shadow.set c .free, intake := s.cards.intake.filter (· != c) } }
      else if v = 0 ∧ (s.cardState c = .done ∨ s.cardState c = .refused) then
        { s with cards := { s.cards with shadow := s.cards.shadow.set c .free } }
      else
        { s with
          attention := s.attention ||| Flag.misuse.mask
          misuse := ⟨BitVec.ofNat 16 (cardAddress c 0), .state⟩ })) ∧
  ∀ (c : CardId) (k : Fin 16) (v : Word) (s : State), s.part ≠ .starting → k ≠ 0 →
    exec (.hostWrite (BitVec.ofNat 14 (cardAddress c k.val)) v) s = .next
      (if s.cardState c = .taken then
        { s with
          attention := s.attention ||| Flag.misuse.mask
          misuse := ⟨BitVec.ofNat 16 (cardAddress c k.val), .takenCard⟩ }
      else { s with mem := s.mem.write (cardAddress c k.val) v })

/-! ### Takings and tables -/

/-- The checks of a taking in their order: the kind, the target, the parameters, the part state (R182). A card
whose kind code is no order kind is refused BAD KIND with the code as its detail. Only LOAD TABLE, START DECK
and CANCEL are taken in UNCONFIGURED. The targets of each kind, and that a CANCEL does not name its own card; and
the parameters that fail, of which CALL and WATCH ARM alone have any (R147, R168). -/
def Obligations.RefusalsAtTaking : Prop :=
  (∀ (k : OrderKind) (c : CardId) (n : Nat), targetAllowed k c n = true ↔
    match k with
    | .stationEnable | .stationDisable => 1 ≤ n ∧ n ≤ 48
    | .rampLower | .rampRaise | .rampHold | .rampResume | .rampClear => 1 ≤ n ∧ n ≤ 4
    | .doorClose | .doorOpen | .doorClear => 1 ≤ n ∧ n ≤ 32
    | .zoneAlert | .zoneSeal | .zoneRelease => 1 ≤ n ∧ n ≤ 8
    | .call | .startDeck => n = 0
    | .callStop => n ≤ 15
    | .watchArm | .watchDisarm | .watchClear => n ≤ 7
    | .loadTable => 1 ≤ n ∧ n ≤ 5
    | .cancel => n ≤ 31 ∧ n ≠ c.val) ∧
  (∀ (k : OrderKind) (c : CardId) (s : State),
    failingParameter k c s = firstOf (parameterErrors k (s.cardParameter c))) ∧
  (∀ (c : CardId) (s : State), s.memoryOk = true → s.headCard = some c → s.cardKind c = none →
    completes .unknownOrderKind s fun t =>
      endsOnly c .badKind (s.cardWord c 1).toNat s t) ∧
  ∀ (k : OrderKind) (c : CardId) (s : State), s.memoryOk = true → s.headOrder k = some c →
    (targetAllowed k c (s.cardTarget c) = false →
      completes k.command s fun t =>
        endsOnly c .badTarget (s.cardTarget c) s t) ∧
    (targetAllowed k c (s.cardTarget c) = true →
      (∀ n, failingParameter k c s = some n →
        completes k.command s fun t =>
          endsOnly c .badValue n s t) ∧
      (failingParameter k c s = none → s.part ≠ .running →
        k ≠ .loadTable → k ≠ .startDeck → k ≠ .cancel →
        completes k.command s fun t =>
          endsOnly c .notConfigured 0 s t))

/-- The fields of a table's entries are judged field by field as their owner's rule has it: each verdict is
the first field in error, or the entry with its values clamped and their number counted (R25, R41, R58, R59,
R102, R126, R189). Four clauses rest on the model's choice (LOG 19): a station and point that an earlier door has
are an error of the later door, equal points of a zone an error of the second, a program's links are followed
after its stage records, and the bits above bit 7 of a stage's valves are dropped (`setWidth 8`). So does the
confirm count 1 of a kind of NONE (LOG 37). -/
def Obligations.TableFieldsAreJudged : Prop :=
  ∀ t : TableWords,
    (∀ i, judgeStation t i = stationVerdict t i) ∧ (∀ p, judgePackEntry t p = packVerdict t p) ∧
    (∀ r, judgeRamp t r = rampVerdict t r) ∧ (∀ d, judgeDoor t d = doorVerdict t d) ∧
    ∀ z, judgeZone t z = zoneVerdict t z

/-- How a LOAD TABLE is judged: the deck is too busy for the table; else the first entry in error decides;
else the cross-checks against the adopted tables; else the table read is adopted with its clamped fields
counted (R188 to R191). A cross-check passes exactly when every reference holds, forward and reverse; the
detail of one that fails carries the code of the new table while one of its own references fails, else of the
first adopted table of which one fails (R190). -/
def Obligations.LoadsAreJudged : Prop :=
  (∀ s : State,
    (judgeLoad .stations s = .error (.busy, 0) ↔ s.part = .running ∧
      ((∃ r : Fin 4, s.ramps[r].state = .moving ∨ s.ramps[r].state = .held) ∨
        (∃ d : Fin 32, s.doors[d].state ∈
          [DoorState.warning, .waiting, .closing, .opening, .obstructed]) ∨
        (∃ i : Fin 16, s.slots[i].state = .playing) ∨ ∃ p : Fin 2, s.packs[p].holder ≠ none)) ∧
    (judgeLoad .packs s = .error (.busy, 0) ↔ ∃ p : Fin 2, s.packs[p].holder ≠ none) ∧
    (judgeLoad .ramps s = .error (.busy, 0) ↔
      ∃ r : Fin 4, s.ramps[r].state = .moving ∨ s.ramps[r].state = .held) ∧
    (judgeLoad .doors s = .error (.busy, 0) ↔
      (∃ d : Fin 32, s.doors[d].state ∈
        [DoorState.warning, .waiting, .closing, .opening, .obstructed]) ∨
        ∃ z : Fin 8, s.zones[z].state = .sealing) ∧
    (judgeLoad .zones s = .error (.busy, 0) ↔ ∃ z : Fin 8, s.zones[z].state ≠ .clear)) ∧
  (∀ s : State,
    (judgeLoad .stations s ≠ .error (.busy, 0) →
      loadsBy .stations (judgeStation (wordsAt s.mem 0x0400 8))
        (fun v => { s.tables with stations := v }) s) ∧
    (judgeLoad .packs s ≠ .error (.busy, 0) →
      loadsBy .packs (judgePackEntry (wordsAt s.mem 0x0580 8))
        (fun v => { s.tables with packs := v }) s) ∧
    (judgeLoad .ramps s ≠ .error (.busy, 0) →
      loadsBy .ramps (judgeRamp (wordsAt s.mem 0x0850 128))
        (fun v => { s.tables with ramps := v }) s) ∧
    (judgeLoad .doors s ≠ .error (.busy, 0) →
      loadsBy .doors (judgeDoor (wordsAt s.mem 0x0650 16))
        (fun v => { s.tables with doors := v }) s) ∧
    (judgeLoad .zones s ≠ .error (.busy, 0) →
      loadsBy .zones (judgeZone (wordsAt s.mem 0x0590 24))
        (fun v => { s.tables with zones := v }) s)) ∧
  (∀ t : Tables, crossCheckAll t = none ↔ ∀ a b, t.referencesHold a b) ∧
  (∀ (name : TableName) (t : Tables), crossCheck name t = none ↔
    ∀ other, other ≠ name → t.has other = true →
      t.referencesHold name other ∧ t.referencesHold other name) ∧
  ∀ (name : TableName) (t : Tables) (detail : Nat), t.listsFit → crossCheck name t = some detail →
    (detail / 8192 = name.code ∧
      ∃ other, other ≠ name ∧ t.has other = true ∧ ¬ t.referencesHold name other) ∨
    ∃ other, detail / 8192 = other.code ∧ other ≠ name ∧ t.has other = true ∧
      ¬ t.referencesHold other name ∧
      ∀ x, x ≠ name → t.has x = true → t.referencesHold name x ∧
        (x.code < other.code → t.referencesHold x name)

/-- LOAD TABLE: a table that passes is adopted whole and its card ends OK with the number of clamped fields;
otherwise the adopted tables stand (R188 to R191). At a station table every station record takes its start
values (R26). The records of what a table describes are judged afresh: at a pack table the packs (R43), at a ramp table
the ramps with their pace records (R61, R87), at a door table the doors (R103), with the ramps told of gates that
are OPEN no longer (R79) and the sealed zones placing their demands again (R134), at a zone table the zones (R128)
and the channels whose call station has changed (R160); and at a station table packs, ramps, doors and zones from
its stations, with the calls kept (R54, R61, R87, R103, R128, R160). The model's readings and choices: a station
table rewrites every zone record (LOG 33); a last count past the travel marks sets over-travel again (LOG 38); a
door without a demand has arrival 0 (LOG 14); and a zone whose alarm is present seals at once in UNCONFIGURED too
(LOG 43), its sealing notice then in flight and the call unit's copy still ALERT (LOG 7). The last premise leaves
out a grant in flight, which a pack that fails at the adoption takes first (LOG 8). -/
def Obligations.LoadTableAdoptsOrRefuses : Prop :=
  ∀ (c : CardId) (name : TableName) (s : State), s.memoryOk = true → s.takes .loadTable c →
    s.cardTarget c = name.code →
    (∀ tables clamped, judgeLoad name s = .ok (tables, clamped) →
      completes .loadTable s fun t =>
        SameBut (endPieces ++ deckPieces ++ [.tables, .stationRest]) s t ∧
        t.tables = tables ∧ t.tables.has name = true ∧ t.endedWith c .ok clamped ∧
        (name ≠ .stations → Piece.stationRest.same s t) ∧
        (name = .stations → ∀ i : Fin 48, t.stations[i].rest =
          { StationRecord.start with
            state := if tables.stations[i].kind ≠ .none ∧ tables.stations[i].enabledAtStart = true
              then .absent else .disabled }) ∧
        (match name with
          | .packs => packsAdopted s t
          | .ramps => rampsAfresh s t
          | .doors => doorsAfresh s t ∧ gatesTold s t ∧ demandsCleared s t
          | .zones => zonesAfresh (fun z => s.zones[z].lastDoorEnd) t ∧ callsOnNewZones s t
          | .stations => packsOnNewStations s t ∧ rampsAfresh s t ∧ doorsAfresh s t ∧
              demandsCleared s t ∧ zonesOnNewStations s t ∧
              (s.callsRest → t.slots = s.slots ∧ t.channels = s.channels)) ∧
        ((∀ p, s.grantInFlight p = none) →
          ∀ id, adoptionRewrites name id = true → t.changeCount id = s.changeCount id + 2)) ∧
    ∀ o detail, judgeLoad name s = .error (o, detail) →
      completes .loadTable s fun t =>
        endsOnly c o detail s t

/-- START DECK: with all five tables adopted and no reference failing the part enters RUNNING, and the line
leaves STOPPED; otherwise the card is refused (R23, R192). At the entry the records hold their start values as
the stations give them: packs (R42), ramps with their pace records (R61, R87), doors (R103), zones (R128), and
call slots and channels, which keep their tokens alone (R146). The model's readings and choices: a last count past
the travel marks sets over-travel again (LOG 38); a door without a demand has arrival 0 (LOG 14); and a zone that
seals at once has its sealing notice in flight, the call unit's copy still ALERT (LOG 7). -/
def Obligations.StartDeckRunsOrRefuses : Prop :=
  ∀ (c : CardId) (s : State), s.memoryOk = true → s.takes .startDeck c →
    (judgeStartDeck s = none ↔ s.part ≠ .running ∧ (∀ name, s.tables.has name = true) ∧
      crossCheckAll s.tables = none) ∧
    (judgeStartDeck s = none →
      completes .startDeck s fun t =>
        SameBut (endPieces ++ deckPieces ++ [.part]) s t ∧ t.part = .running ∧
        t.endedWith c .ok 0 ∧ (t.line.mode = .idle ∨ t.line.mode = .sending) ∧
        packsStarted s t ∧ rampsAfresh s t ∧ doorsAfresh s t ∧ zonesAfresh (fun _ => none) t ∧
        callsStarted s t ∧
        ∀ id, startRewrites id = true → t.changeCount id = s.changeCount id + 2) ∧
    ∀ o detail, judgeStartDeck s = some (o, detail) →
      completes .startDeck s fun t =>
        endsOnly c o detail s t

/-- CANCEL acts on its target card by the card's state and owner (R71, R117, R141, R158, R185): the card ends
CANCELLED, a ramp is held, a door stops, a zone goes on without its card, and a call ends with STOP on the
channels it held. That clip, chime flag and token are 0 beside STOP in the image of a call station is the model's
reading (LOG 13). `cardsSound` is the invariant of StepKeepsTheCardsSound. -/
def Obligations.CancelEndsItsTarget : Prop :=
  ∀ (c : CardId) (n : Fin 32) (s : State), s.memoryOk = true → s.takes .cancel c →
    s.cardTarget c = n.val →
    (s.cardState (boardCard n) = .posted →
      completes .cancel s fun t =>
        SameBut (endPieces ++ cardPieces) s t ∧ t.endedWith c .ok 0 ∧
        t.cardState (boardCard n) = .refused ∧ boardCard n ∉ t.cards.intake ∧
        t.cardWord (boardCard n) 12 = 0x10 ∧ t.cardWord (boardCard n) 13 = 0) ∧
    (∀ r e, s.cardState (boardCard n) = .taken → s.ownerOf (boardCard n) = some (.ramp r) →
      s.rampEntry r = some e → s.ramps[r].state = .moving →
      completes .cancel s fun t =>
        SameBut (endPieces ++ holdPieces) s t ∧ t.endedWith c .ok 0 ∧
        t.endedWith (boardCard n) .cancelled s.ramps[r].programStage ∧
        t.ramps[r] = { s.ramps[r].stopped .held .cancelled with holdCause := .cancel }) ∧
    (∀ d e, s.cardState (boardCard n) = .taken → s.ownerOf (boardCard n) = some (.door d) →
      s.doorEntry d = some e → s.doors[d].origin ≠ .zone →
      completes .cancel s fun t =>
        SameBut (endPieces ++ deckPieces) s t ∧ t.endedWith c .ok 0 ∧
        (s.cardsSound → t.endedWith (boardCard n) .cancelled 0) ∧
        t.doors[d].state = s.doors[d].switchState ∧ t.doors[d].demand = .none ∧
        t.doors[d].origin = .none ∧ t.doors[d].card = none ∧
        t.doors[d].lastOutcome = some .cancelled) ∧
    (∀ z, s.cardState (boardCard n) = .taken → s.ownerOf (boardCard n) = some (.zone z) →
      completes .cancel s fun t =>
        SameBut (endPieces ++ cardPieces ++ [.zones]) s t ∧ t.endedWith c .ok 0 ∧
        t.endedWith (boardCard n) .cancelled 0 ∧
        ∀ z', t.zones[z'] = if z' = z then { s.zones[z] with card := none } else s.zones[z']) ∧
    (∀ i, s.cardState (boardCard n) = .taken → s.ownerOf (boardCard n) = some (.call i) →
      completes .cancel s fun t =>
        SameBut (endPieces ++ callPieces) s t ∧ t.endedWith c .ok 0 ∧ stopsCall i s t) ∧
    (s.cardState (boardCard n) ≠ .posted → s.cardState (boardCard n) ≠ .taken →
      completes .cancel s fun t =>
        endsOnly c .wrongState 0 s t)

/-- STATION ENABLE and STATION DISABLE: the station's record, and no other station's (R38, R39). A station of
kind NONE is refused BAD TARGET. A station disabled leaves the owed set, and its entry the pending SET list;
with its SET in flight the entry leaves and the transaction ends at once in PAUSED, as after NO ANSWER, and in
SETTLING, which runs on, and otherwise the entry stays while the transaction goes on to its answer, marked for
removal (R19). -/
def Obligations.StationOrders : Prop :=
  ∀ (c : CardId) (i : Fin 48) (s : State), s.memoryOk = true → s.cardTarget c = deckNumber i →
    (s.takes .stationEnable c → s.stationKind i ≠ .none →
      completes .stationEnable s fun t =>
        SameBut (endPieces ++ cardPieces ++ [.stationRest]) s t ∧ t.endedWith c .ok 0 ∧
        ∀ j : Fin 48, t.stations[j].rest =
          if j = i ∧ s.stations[i].state = .disabled then
            { s.stations[i].rest with state := .absent, missCount := 0, reportAwaited := true }
          else s.stations[j].rest) ∧
    (s.takes .stationDisable c → s.stationKind i ≠ .none →
      completes .stationDisable s fun t =>
        SameBut (endPieces ++ deckPieces ++ [.stationRest]) s t ∧ t.endedWith c .ok 0 ∧
        ∀ j : Fin 48, t.stations[j].rest =
          if j = i ∧ s.stations[i].state ≠ .disabled then
            { s.stations[i].rest with
              state := .disabled, missCount := 0, rejoinPending := false, reportAwaited := true,
              candidate := none, repeatCount := 0 }
          else s.stations[j].rest) ∧
    (s.takes .stationDisable c → s.stationKind i ≠ .none → s.stations[i].state ≠ .disabled →
      completes .stationDisable s fun t =>
        t.line.owed[i] = none ∧
        (s.line.setInFlight i = none → t.line.entry? i = none) ∧
        ∀ tr, s.line.transaction = some tr → tr.isSet = true → tr.station = i → tr.discard = false →
          (s.line.mode = .paused → t.line.entry? i = none ∧ t.line.transaction = none ∧
            t.line.mode = .settling ∧ t.line.settleTime = 4) ∧
          (s.line.mode = .settling → t.line.entry? i = none ∧ t.line.transaction = none ∧
            t.line.mode = .settling ∧ t.line.settleTime = s.line.settleTime) ∧
          (s.line.mode = .sending ∨ s.line.mode = .listening ∨ s.line.mode = .receiving →
            t.line.entry? i = s.line.entry? i ∧ t.line.mode = s.line.mode ∧
            t.line.transaction = some { tr with removal := true })) ∧
    (s.stationKind i = .none → ∀ k, k = .stationEnable ∨ k = .stationDisable → s.takes k c →
      completes k.command s fun t =>
        endsOnly c .badTarget 0 s t)

/-! ### Ramp orders -/

/-- An accepted RAMP LOWER or RAMP RAISE starts its program: the ramp is MOVING, awaits its grant, and owns
the card (R66); its pace is seeded with N copies of the nominal interval, whose average is that interval, and S,
L and the stall limit are absent (R89, R91). No other ramp's record changes. That it stands at stage 0 and awaits its grant at the end
of the command, also where the arbiter grants its pack at once, is the model's reading: the grant notice is in
flight until its own command (LOG 7). -/
def Obligations.RampProgramStarts : Prop :=
  (∀ (pace : PaceRecord) (e : RampEntry), e.depth ≠ 0 → pace.seed e =
    { pace with
      history := List.replicate e.depth e.nominal, p := some e.nominal, s := none, l := none
      stallLimit := none, warningCount := 0 }) ∧
  ∀ (k : OrderKind) (p : Program) (c : CardId) (r : Fin 4) (e : RampEntry) (s : State),
    (k = .rampLower ∧ p = .lower) ∨ (k = .rampRaise ∧ p = .raise) →
    s.takes k c → s.cardTarget c = deckNumber r → s.rampEntry r = some e → judgeProgram r p s = none →
    completes k.command s fun t =>
      SameBut (endPieces ++ deckPieces) s t ∧
      ∀ r', t.ramps[r'] =
        if r' = r then
          { s.ramps[r] with
            program := p, programStage := if p = .lower then e.lowerFirst else e.raiseFirst,
            card := some c, overTravel := false, pace := s.ramps[r].pace.seed e, state := .moving,
            stage := 0, awaitingGrant := true }
        else s.ramps[r']

/-- RAMP HOLD on a MOVING ramp holds it; the HOLD card ends OK with the program stage, and the program's own
card ends HELD (R68, R76). A running stage parks its valves: all are off in the image of the ramp's station,
and the change is sent URGENT (R36, R37, R76). On a ramp that is not fitted the order is refused BAD TARGET
(4.1). An accepted RAMP RESUME goes on with the held program (R69). That the ramp stands at stage 0 and awaits
its grant at the end of that command, also where the arbiter grants its pack at once, is the model's reading:
the grant notice is in flight until its own command (LOG 7). -/
def Obligations.RampHoldAndResume : Prop :=
  (∀ (c : CardId) (r : Fin 4) (e : RampEntry) (s : State), s.memoryOk = true → s.takes .rampHold c →
    s.cardTarget c = deckNumber r → s.rampEntry r = some e →
    (s.ramps[r].state = .moving →
      completes .rampHold s fun t =>
        SameBut (endPieces ++ holdPieces) s t ∧
        t.endedWith c .ok s.ramps[r].programStage ∧
        (∀ d, s.ramps[r].card = some d → d ≠ c → t.endedWith d .held s.ramps[r].programStage) ∧
        (s.ramps[r].awaitingGrant = false → s.isRampStation e.station r →
          imageSent e.station 0 true s t) ∧
        ∀ r', t.ramps[r'] =
          if r' = r then { s.ramps[r].stopped .held .held with holdCause := .order }
          else s.ramps[r']) ∧
    (s.ramps[r].state ≠ .moving →
      completes .rampHold s fun t =>
        endsOnly c .wrongState 0 s t)) ∧
  (∀ (c : CardId) (r : Fin 4) (s : State), s.memoryOk = true → s.takes .rampHold c →
    s.cardTarget c = deckNumber r → s.rampEntry r = none →
    completes .rampHold s fun t =>
      endsOnly c .badTarget 0 s t) ∧
  ∀ (c : CardId) (r : Fin 4) (e : RampEntry) (s : State), s.takes .rampResume c →
    s.cardTarget c = deckNumber r → s.rampEntry r = some e → judgeResume r s = none →
    completes .rampResume s fun t =>
      SameBut (endPieces ++ [.lineList, .stationImages, .packs, .ramps, .handovers]) s t ∧
      s.ramps[r].state = .held ∧
      ∀ r', t.ramps[r'] =
        if r' = r then
          { s.ramps[r] with card := some c, state := .moving, stage := 0, awaitingGrant := true }
        else s.ramps[r']

/-- RAMP CLEAR takes a ramp out of FAULT once its station has reported (R70). -/
def Obligations.RampClearLeavesFault : Prop :=
  ∀ (c : CardId) (r : Fin 4) (e : RampEntry) (s : State), s.memoryOk = true → s.takes .rampClear c →
    s.cardTarget c = deckNumber r → s.rampEntry r = some e →
    (s.ramps[r].state = .fault → s.stations[e.station].state = .present →
      s.stations[e.station].reportAwaited = false →
      completes .rampClear s fun t =>
        SameBut (endPieces ++ deckPieces) s t ∧ t.endedWith c .ok 0 ∧
        t.ramps[r] =
          { s.ramps[r] with
            state := s.ramps[r].switchState, program := .none, stage := 0, programStage := 0,
            faultCause := .none }) ∧
    (s.ramps[r].state = .fault →
      s.stations[e.station].state ≠ .present ∨ s.stations[e.station].reportAwaited = true →
      completes .rampClear s fun t =>
        endsOnly c .interlock 0 s t) ∧
    (s.ramps[r].state ≠ .fault →
      completes .rampClear s fun t =>
        endsOnly c .wrongState 0 s t)

/-- How RAMP LOWER, RAMP RAISE and RAMP RESUME are judged: the first check of R65 that fails decides, and
RESUME is judged as the held program would be (R69). A program is accepted exactly when the ramp stands still
and every interlock passes: the deck stop, the zone, the pack, and for LOWER the gate doors. -/
def Obligations.ProgramsAreAcceptedOnlyWhenSafe : Prop :=
  (∀ (r : Fin 4) (p : Program) (s : State), p = .lower ∨ p = .raise →
    (judgeProgram r p s = none ↔
      ∃ e, s.rampEntry r = some e ∧
        (s.ramps[r].state = .stowed ∨ s.ramps[r].state = .landed ∨ s.ramps[r].state = .stopped ∨
          s.ramps[r].state = .held) ∧
        s.pins.stopLevel = false ∧ s.zones[e.zone].state ≠ .sealing ∧
        s.packs[e.pack].state ≠ .failed ∧
        (p = .lower → s.zones[e.zone].state ≠ .sealed ∧ s.zones[e.zone].state ≠ .impaired ∧
          ∀ d ∈ e.gates, s.doors[d].state = .opened))) ∧
  (∀ (r : Fin 4) (p : Program) (s : State), s.rampEntry r = none →
    judgeProgram r p s = some (.badTarget, 0) ∧ judgeResume r s = some (.badTarget, 0)) ∧
  ∀ (r : Fin 4) (e : RampEntry) (s : State), s.rampEntry r = some e →
    (∀ p, p = .lower ∨ p = .raise → judgeProgram r p s =
      firstOf ((s.ramps[r].state == .off || s.ramps[r].state == .moving || s.ramps[r].state == .fault,
        (.wrongState, 0)) :: interlocks e p s)) ∧
    judgeResume r s =
      firstOf ((s.ramps[r].state != .held, (.wrongState, 0)) :: interlocks e s.ramps[r].program s)

/-- An order that its owner refuses ends its card with the outcome of the first check that fails, and changes
nothing else; RAMP CLEAR of a ramp that is not fitted (4.1) and DOOR CLEAR of a door that is not fitted are
refused BAD TARGET, and DOOR CLEAR of a door that has not failed WRONG STATE (R65, R69, R114, R116, R121). -/
def Obligations.OwnersRefusals : Prop :=
  ∀ (c : CardId) (o : OrderOutcome) (detail : Nat) (s : State), s.memoryOk = true →
    (∀ r : Fin 4, s.cardTarget c = deckNumber r →
      (s.takes .rampLower c → judgeProgram r .lower s = some (o, detail) →
        completes .rampLower s fun t =>
          endsOnly c o detail s t) ∧
      (s.takes .rampRaise c → judgeProgram r .raise s = some (o, detail) →
        completes .rampRaise s fun t =>
          endsOnly c o detail s t) ∧
      (s.takes .rampResume c → judgeResume r s = some (o, detail) →
        completes .rampResume s fun t =>
          endsOnly c o detail s t) ∧
      (s.takes .rampClear c → s.rampEntry r = none →
        completes .rampClear s fun t =>
          endsOnly c .badTarget 0 s t)) ∧
    ∀ d : Fin 32, s.cardTarget c = deckNumber d →
      (s.takes .doorOpen c → judgeDoorOpen d s = some (o, detail) →
        completes .doorOpen s fun t =>
          endsOnly c o detail s t) ∧
      (s.takes .doorClose c → judgeDoorClose d s = some (o, detail) →
        completes .doorClose s fun t =>
          endsOnly c o detail s t) ∧
      (s.takes .doorClear c → s.doorEntry d ≠ none → s.doors[d].state ≠ .failed →
        completes .doorClear s fun t =>
          endsOnly c .wrongState 0 s t) ∧
      (s.takes .doorClear c → s.doorEntry d = none →
        completes .doorClear s fun t =>
          endsOnly c .badTarget 0 s t)

/-! ### Door orders -/

/-- How DOOR OPEN and DOOR CLOSE are judged: the first check that applies decides, and an order to which none
applies is accepted (R114, R116). -/
def Obligations.DoorOrdersAreJudged : Prop :=
  (∀ (d : Fin 32) (s : State), s.doorEntry d = none →
    judgeDoorOpen d s = some (.badTarget, 0) ∧ judgeDoorClose d s = some (.badTarget, 0)) ∧
  ∀ (d : Fin 32) (e : DoorEntry) (s : State), s.doorEntry d = some e →
    judgeDoorOpen d s = firstOf
      [(s.doors[d].state == .unknown || s.doors[d].state == .failed, (.wrongState, 0)),
        (s.zones[e.zone].state == .sealing || s.zones[e.zone].state == .sealed ||
          s.zones[e.zone].state == .impaired, (.interlock, 2)),
        (s.doors[d].origin == .zone, (.interlock, 3)), (s.pins.stopLevel, (.interlock, 1)),
        (s.doors[d].state == .opened, (.ok, 0)), (s.doors[d].demand == .openDoor, (.busy, 0))] ∧
    judgeDoorClose d s = firstOf
      ([(s.doors[d].state == .unknown || s.doors[d].state == .failed, (.wrongState, 0)),
        (s.doors[d].state == .closed, (.ok, 0)),
        (s.doors[d].origin == .zone, (.busy, e.zone.val + 1)),
        (s.doors[d].demand == .close, (.busy, 0))] ++
      match e.kind with
      | .gate _ r => [(!s.doorUnit.rampStowed[r], (.interlock, 100 + (r.val + 1)))]
      | _ => [])

/-- An accepted DOOR CLOSE begins a close: the door warns for its warn time, and with none it starts at once
(R106, R107, R116). An accepted DOOR OPEN: a spring door is OPENING, a hydraulic one waits for its pack or
opens at once (R114, R115). That an end switch confirmed already does not end the operation at its beginning is
the model's choice (LOG 40). -/
def Obligations.DoorOperationsBegin : Prop :=
  (∀ (c : CardId) (d : Fin 32) (e : DoorEntry) (s : State), s.takes .doorClose c →
    s.cardTarget c = deckNumber d → s.doorEntry d = some e → judgeDoorClose d s = none →
    completes .doorClose s fun t =>
      SameBut (endPieces ++ deckPieces) s t ∧
      t.doors[d].demand = .close ∧ t.doors[d].origin = cardOrigin c ∧ t.doors[d].card = some c ∧
      t.doors[d].arrival = s.doorUnit.nextArrival ∧ t.doors[d].retriesUsed = 0 ∧
      t.doors[d].finishing = false ∧ t.doors[d].warned = false ∧
      t.doors[d].outputs = doorOutputs e.kind t.doors[d] ∧
      (e.warnTime ≠ 0 → t.doors[d].state = .warning ∧
        t.doors[d].warningTimer = startTimer s.clock (1000 * e.warnTime)) ∧
      (e.warnTime = 0 → e.kind.isHydraulic = false → t.doors[d].state = .closing ∧
        t.doors[d].motionTimer = startTimer s.clock (1000 * e.closeLimit)) ∧
      (e.warnTime = 0 → e.kind.isHydraulic = true →
        t.doors[d].state = .waiting ∨ t.doors[d].state = .closing)) ∧
  ∀ (c : CardId) (d : Fin 32) (e : DoorEntry) (s : State), s.takes .doorOpen c →
    s.cardTarget c = deckNumber d → s.doorEntry d = some e → judgeDoorOpen d s = none →
    completes .doorOpen s fun t =>
      SameBut (endPieces ++ deckPieces) s t ∧
      t.doors[d].demand = .openDoor ∧ t.doors[d].origin = cardOrigin c ∧ t.doors[d].card = some c ∧
      t.doors[d].arrival = s.doorUnit.nextArrival ∧
      t.doors[d].outputs = doorOutputs e.kind t.doors[d] ∧
      (e.kind.isHydraulic = false → t.doors[d].state = .opening ∧
        t.doors[d].motionTimer = startTimer s.clock (1000 * e.openLimit)) ∧
      (e.kind.isHydraulic = true → t.doors[d].state = .waiting ∨ t.doors[d].state = .opening)

/-- DOOR CLEAR takes a FAILED door to the state its switches give (R105); under a zone demand a door that is not
CLOSED closes again, or is deferred while it is a gate whose ramp is not STOWED (R119, R121). With a warn time of 0 its warning
has run at once: it asks its zone for its start, which is given at once unless the stagger runs (R106, R135,
R136). That it asks and is given its start in every part state is the model's reading (LOG 20), as is the flight
of the start (LOG 7). -/
def Obligations.DoorClearTakesTheSwitches : Prop :=
  (∀ r : DoorRecord, (r.switchState = .closed ↔ r.closedSwitch = true ∧ r.openSwitch = false) ∧
    (r.switchState = .opened ↔ r.openSwitch = true ∧ r.closedSwitch = false) ∧
    (r.switchState = .ajar ↔ r.closedSwitch = r.openSwitch)) ∧
  (∀ (d : Fin 32) (s : State), s.gateMustWait d = true ↔
    ∃ e p r, s.doorEntry d = some e ∧ e.kind = .gate p r ∧ s.doorUnit.rampStowed[r] = false) ∧
  ∀ (c : CardId) (d : Fin 32) (e : DoorEntry) (s : State), s.memoryOk = true → s.takes .doorClear c →
    s.cardTarget c = deckNumber d → s.doorEntry d = some e → s.doors[d].state = .failed →
    completes .doorClear s fun t =>
      SameBut (endPieces ++ deckPieces) s t ∧ t.endedWith c .ok 0 ∧
      t.doors[d].demand = s.doors[d].demand ∧ t.doors[d].origin = s.doors[d].origin ∧
      (s.doors[d].zoneClose = false ∨ s.doors[d].switchState = .closed →
        t.doors[d].state = s.doors[d].switchState) ∧
      (s.doors[d].zoneClose = true → s.doors[d].switchState ≠ .closed →
        (s.gateMustWait d = true →
          t.doors[d].state = s.doors[d].switchState ∧ t.doors[d].deferred = true) ∧
        (s.gateMustWait d = false →
          t.doors[d].state = .warning ∧ t.doors[d].retriesUsed = 0 ∧
          (e.warnTime ≠ 0 → t.doors[d].warned = false ∧
            t.doors[d].warningTimer = startTimer s.clock (1000 * e.warnTime)) ∧
          (e.warnTime = 0 → t.doors[d].warned = true ∧ t.doors[d].warningTimer = none ∧
            (s.zones[e.zone].staggerTimer ≠ none → d ∈ t.zones[e.zone].startRequests) ∧
            (s.zones[e.zone].staggerTimer = none → s.zones[e.zone].startRequests = [] →
              t.inFlight (.doorStart d) = true))))

/-! ### Zone orders -/

/-- ZONE ALERT: a CLEAR zone enters ALERT and its alert timer starts; with a confirm time of 0 the timer has
expired at once, and the zone has entered SEALING with cause AUTO if auto seal is yes and its alarm present,
and is else in ALERT with its timer stopped (R131, R132, R138). ZONE SEAL: a CLEAR or ALERT zone enters
SEALING with its card, and work is handed to the ramp unit, the door unit and the call unit; a sealed zone
answers OK (R132, R139). No other zone changes. That this work is in flight between commands, so that the call
unit's copy of a zone that seals at once is still ALERT, is the model's reading (LOG 7). -/
def Obligations.ZoneAlertAndSeal : Prop :=
  (∀ (c : CardId) (z : Fin 8) (s : State), s.memoryOk = true → s.takes .zoneAlert c →
    s.cardTarget c = deckNumber z →
    (s.zones[z].state = .clear →
      completes .zoneAlert s fun t =>
        SameBut (endPieces ++ callPieces ++ [.zones, .callUnit, .handovers]) s t ∧
        t.endedWith c .ok 0 ∧ t.callUnit.zoneCopy[z] = .alert ∧
        ((s.zoneEntry z).confirmTime ≠ 0 → ∀ z', t.zones[z'] =
          if z' = z then
            { s.zones[z] with
              state := .alert
              alertTimer := startTimer s.clock (1000 * (s.zoneEntry z).confirmTime) }
          else s.zones[z']) ∧
        ((s.zoneEntry z).confirmTime = 0 →
          ((s.zoneEntry z).autoSeal = true ∧ s.zones[z].alarm = true →
            t.inFlight (.zoneHold z) = true ∧ t.inFlight (.zoneDemand z) = true ∧
            t.inFlight (.sealingNotice z) = true) ∧
          ∀ z', t.zones[z'] =
            if z' = z then
              if (s.zoneEntry z).autoSeal = true ∧ s.zones[z].alarm = true then
                { s.zones[z] with
                  state := .sealing, sealCause := .auto, card := none, alertTimer := none,
                  startRequests := [], staggerTimer := none, placementPending := true }
              else { s.zones[z] with state := .alert, alertTimer := none }
            else s.zones[z'])) ∧
    (s.zones[z].state = .alert →
      completes .zoneAlert s fun t =>
        endsOnly c .ok 0 s t) ∧
    (s.zones[z].state.isSealed = true →
      completes .zoneAlert s fun t =>
        endsOnly c .wrongState 0 s t)) ∧
  ∀ (c : CardId) (z : Fin 8) (s : State), s.memoryOk = true → s.takes .zoneSeal c →
    s.cardTarget c = deckNumber z →
    (s.zones[z].state = .clear ∨ s.zones[z].state = .alert →
      completes .zoneSeal s fun t =>
        SameBut (endPieces ++ [.zones, .handovers]) s t ∧
        t.inFlight (.zoneHold z) = true ∧ t.inFlight (.zoneDemand z) = true ∧
        t.inFlight (.sealingNotice z) = true ∧
        ∀ z', t.zones[z'] =
          if z' = z then
            { s.zones[z] with
              state := .sealing, sealCause := cardSealCause c, card := some c, alertTimer := none,
              startRequests := [], staggerTimer := none, placementPending := true }
          else s.zones[z']) ∧
    (s.zones[z].state.isSealed = true →
      completes .zoneSeal s fun t =>
        endsOnly c .ok 0 s t)

/-- ZONE RELEASE is refused while the alarm is present; otherwise the zone is CLEAR (R142, R143). From a
sealed state its card, if it has one, ends CANCELLED with the number of doors not CLOSED, no start is left
requested, and each of its doors under its demand is dealt with by its state (R120, R140). Three clauses rest on
the model's choice (LOG 8): that placement pending is no after it, that no start of its doors is left in flight,
and the last one's premise, which leaves out a demand set in flight, since that is placed first. -/
def Obligations.ZoneReleaseOrder : Prop :=
  ∀ (c : CardId) (z : Fin 8) (s : State), s.memoryOk = true → s.takes .zoneRelease c →
    s.cardTarget c = deckNumber z →
    (s.zones[z].alarm = true →
      completes .zoneRelease s fun t =>
        endsOnly c .interlock (if s.zones[z].points.any (·.active) then 1 else 2) s t) ∧
    (s.zones[z].alarm = false → s.zones[z].state = .clear →
      completes .zoneRelease s fun t =>
        endsOnly c .ok 0 s t) ∧
    (s.zones[z].alarm = false → s.zones[z].state = .alert →
      completes .zoneRelease s fun t =>
        SameBut (endPieces ++ callPieces ++ [.zones, .callUnit, .handovers]) s t ∧
        t.endedWith c .ok 0 ∧ t.callUnit.zoneCopy[z] = .clear ∧
        ∀ z', t.zones[z'] =
          if z' = z then { s.zones[z] with state := .clear, alertTimer := none }
          else s.zones[z']) ∧
    (s.zones[z].alarm = false → s.zones[z].state.isSealed = true →
      completes .zoneRelease s fun t =>
        SameBut (endPieces ++ deckPieces) s t ∧ t.endedWith c .ok 0 ∧
        t.zones[z].state = .clear ∧ t.zones[z].card = none ∧ t.callUnit.zoneCopy[z] = .clear ∧
        t.zones[z].startRequests = [] ∧ t.zones[z].staggerTimer = none ∧
        t.zones[z].placementPending = false ∧
        (∀ d e, s.doorEntry d = some e → e.zone = z → t.inFlight (.doorStart d) = false) ∧
        (∀ d, s.zones[z].card = some d → s.cardsSound → t.endedWith d .cancelled
          (s.zones[z].doorStates.length - s.zones[z].doorStates.countP (fun x => x.2 == .closed))) ∧
        (s.inFlight (.zoneDemand z) = false → ∀ d e, s.doorEntry d = some e → e.zone = z →
          s.doors[d].demand = .close → s.doors[d].origin = .zone →
          (s.doors[d].state = .warning ∨ s.doors[d].state = .waiting ∨
              s.doors[d].state = .obstructed →
            t.doors[d].state = s.doors[d].switchState ∧ t.doors[d].demand = .none ∧
            t.doors[d].origin = .none ∧ t.doors[d].lastOutcome = some .cancelled ∧
            t.doors[d].warningTimer = none ∧ t.doors[d].retryTimer = none ∧
            t.doors[d].packWaitTimer = none) ∧
          (s.doors[d].state = .closing → t.doors[d].state = .closing ∧
            t.doors[d].finishing = true ∧ t.doors[d].demand = .close ∧
            t.doors[d].motionTimer = s.doors[d].motionTimer) ∧
          (s.doors[d].state = .closed ∨ s.doors[d].state = .failed ∨ s.doors[d].state = .unknown ∨
              s.doors[d].state = .opened ∨ s.doors[d].state = .ajar →
            t.doors[d].state = s.doors[d].state ∧ t.doors[d].demand = .none ∧
            t.doors[d].origin = .none ∧ t.doors[d].deferred = false)))

/-- The seal judgement of a zone, by its counts of doors, of CLOSED doors and of doors in a close: its next
state; and at an entry to SEALED or IMPAIRED the zone's card ends, OK or PARTIAL with the number of doors not
CLOSED, and the call unit is told (R133, R140, R143). While a placement is pending only a SEALED zone is
judged. -/
def Obligations.SealIsJudged : Prop :=
  ∀ (z : Fin 8) (doors closed busy : Nat) (next : ZoneState) (s : State),
    doors = s.zones[z].doorStates.length →
    closed = s.zones[z].doorStates.countP (fun x => x.2 == .closed) →
    busy = s.zones[z].doorStates.countP (fun x =>
      x.2 == .warning || x.2 == .waiting || x.2 == .closing || x.2 == .obstructed) →
    next =
      (match s.zones[z].state with
        | .sealing =>
          if s.zones[z].placementPending then .sealing
          else if closed = doors then .sealed
          else if busy = 0 then .impaired else .sealing
        | .sealed => if closed < doors then .impaired else .sealed
        | .impaired =>
          if s.zones[z].placementPending = false ∧ closed = doors then .sealed else .impaired
        | st => st) →
    (next = s.zones[z].state → judgeSeal z s = s) ∧
    (next ≠ s.zones[z].state → ∀ t, t = judgeSeal z s →
      SameBut (cardPieces ++ [.attention, .shadow, .lineList, .stationImages, .zones, .slots, .channels,
        .callUnit, .handovers]) s t ∧
      (∀ z', t.zones[z'] =
        if z' = z then { s.zones[z] with state := next, card := none } else s.zones[z']) ∧
      t.callUnit.zoneCopy[z] = next ∧
      ∀ c, s.zones[z].state = .sealing → s.zones[z].card = some c → s.cardsSound → s.memoryOk = true →
        if next = .sealed then t.endedWith c .ok 0 else t.endedWith c .partialOk (doors - closed))

/-! ### Call orders -/

/-- CALL: its parameters give the call, or the first that fails (R147), and a BOARDING or ROUTINE call drops its
zones that are sealed (R148). Barred from all its zones it is refused INTERLOCK 2; placed on a free deck it takes slot 0 and plays
in every zone that remains, its PLAY sent to the zone's call station, URGENT for an EMERGENCY call (R36, R37,
R147, R148, R150, R152, R154). An EMERGENCY call cuts the calls below it that hold its channels, each whole:
one with resume-on-cut is QUEUED again, another ends CUT with its repeats done (R153). -/
def Obligations.CallStartsInItsZones : Prop :=
  (∀ (c : CardId) (s : State), callParameters s c =
    match firstOf (parameterErrors .call (s.cardParameter c)) with
    | some n => .error n
    | none => .ok (callOf c (s.cardParameter c))) ∧
  (∀ (priority : Priority) (zones : BitVec 8) (z : Fin 8) (s : State),
    hasZone (s.allowedZones priority zones) z = true ↔ hasZone zones z = true ∧
      ¬ ((priority = .routine ∨ priority = .boarding) ∧
        (s.callUnit.zoneCopy[z] = .sealing ∨ s.callUnit.zoneCopy[z] = .sealed ∨
          s.callUnit.zoneCopy[z] = .impaired))) ∧
  ∀ (c : CardId) (call : SlotRecord) (zones : BitVec 8) (s : State), s.memoryOk = true →
    s.takes .call c → callParameters s c = .ok call →
    zones = s.allowedZones call.priority call.zones →
    (zones = 0 →
      completes .call s fun t =>
        endsOnly c .interlock 2 s t) ∧
    (zones ≠ 0 → (∀ i : Fin 16, s.slots[i].state = .free) →
      (∀ z, hasZone zones z = true → s.channels[z].holder = none ∧ s.canPlay z) →
      completes .call s fun t =>
        SameBut (endPieces ++ callPieces ++ [.callUnit]) s t ∧
        t.callUnit = { s.callUnit with nextArrival := s.callUnit.nextArrival + 1 } ∧
        (∀ i : Fin 16, t.slots[i] =
          if i = 0 then
            { call with state := .playing, zones := zones, arrival := s.callUnit.nextArrival }
          else s.slots[i]) ∧
        (∀ z x, hasZone zones z = true → (s.zoneEntry z).callStation = some x → s.isCallStation x z →
          imageSent x (CallContribution.play call.clip call.chime (s.channels[z].token + 1)).image
            (call.priority == .emergency) s t) ∧
        ∀ z, t.channels[z] =
          if hasZone zones z = true then s.channels[z].plays 0 call s.clock else s.channels[z]) ∧
    ∀ i : Fin 16, zones ≠ 0 → call.priority = .emergency → s.cardsSound → s.firstFree i →
      (∀ j : Fin 16, s.slots[j].state ≠ .queued) →
      (∀ z : Fin 8, s.callUnit.zoneCopy[z].isSealed = false) →
      (∀ z, hasZone zones z = true → s.canPlay z) →
      (∀ z j, hasZone zones z = true → s.channels[z].holder = some j →
        s.slots[j].state ≠ .free ∧ s.slots[j].priority ≠ .emergency ∧
          hasZone s.slots[j].zones z = true) →
      completes .call s fun t =>
        SameBut (endPieces ++ callPieces ++ [.callUnit]) s t ∧
        t.callUnit = { s.callUnit with nextArrival := s.callUnit.nextArrival + 1 } ∧
        (∀ j : Fin 16, t.slots[j] =
          if j = i then
            { call with state := .playing, zones := zones, arrival := s.callUnit.nextArrival }
          else if s.holdsIn zones j then
            if s.slots[j].resumeOnCut then { s.slots[j] with state := .queued, gapTimer := none }
            else SlotRecord.start
          else s.slots[j]) ∧
        (∀ j d, s.holdsIn zones j = true → s.slots[j].resumeOnCut = false →
          s.slots[j].card = some d → t.endedWith d .cut s.slots[j].repeatsDone) ∧
        ∀ z, t.channels[z] =
          if hasZone zones z = true then s.channels[z].plays i call s.clock
          else
            match s.channels[z].holder with
            | some j => if s.holdsIn zones j then s.channels[z].stopped else s.channels[z]
            | none => s.channels[z]

/-- The queue order, and how a call enters: it merges into the first QUEUED call of equal clip and zones,
takes the lowest FREE slot, or, being EMERGENCY, the slot of the newest QUEUED call of the lowest priority
below EMERGENCY, which ends CUT; else it is BUSY (R149 to R151). Two calls of one priority and one arrival
number rank by slot number, the model's choice (LOG 44). A CALL that merges ends OK with the slot; one that
finds a channel held waits QUEUED with its card TAKEN (R152). -/
def Obligations.CallsEnterByMergingOrASlot : Prop :=
  (∀ (i j : Fin 16) (s : State), s.ranksAhead i j = true ↔
    s.slots[j].priority.rank < s.slots[i].priority.rank ∨
      (s.slots[i].priority = s.slots[j].priority ∧
        ((s.callUnit.nextArrival - s.slots[j].arrival).toNat <
            (s.callUnit.nextArrival - s.slots[i].arrival).toNat ∨
          (s.slots[i].arrival = s.slots[j].arrival ∧ i < j)))) ∧
  (∀ (call : SlotRecord) (i : Fin 16) (s : State), s.mergesWith call i →
    (∀ j, s.mergesWith call j → j ≠ i → s.ranksAhead i j = true) →
    enterCall call s = (.merged i,
      setSlot i
        { s.slots[i] with
          priority :=
            if s.slots[i].priority.rank < call.priority.rank then call.priority
            else s.slots[i].priority
          repeats := max s.slots[i].repeats call.repeats } s)) ∧
  (∀ (call : SlotRecord) (s : State), (∀ j, ¬ s.mergesWith call j) →
    (∀ i, s.firstFree i → enterCall call s = (.taken,
      setSlot i (call.queuedAt s.callUnit.nextArrival)
        { s with callUnit := { s.callUnit with nextArrival := s.callUnit.nextArrival + 1 } })) ∧
    ((∀ j : Fin 16, s.slots[j].state ≠ .free) →
      (call.priority ≠ .emergency ∨
          (∀ j : Fin 16, s.slots[j].state = .queued → s.slots[j].priority = .emergency) →
        enterCall call s = (.busy, s)) ∧
      ∀ i : Fin 16, call.priority = .emergency → s.memoryOk = true → s.slots[i].state = .queued →
        s.slots[i].priority ≠ .emergency →
        (∀ j : Fin 16, s.slots[j].state = .queued → s.slots[j].priority ≠ .emergency → j ≠ i →
          s.ranksAhead j i = true) →
        (enterCall call s).1 = .taken ∧ ∀ t, t = (enterCall call s).2 →
          SameBut (cardPieces ++ [.attention, .shadow, .slots, .channels, .callUnit]) s t ∧
          t.callUnit = { s.callUnit with nextArrival := s.callUnit.nextArrival + 1 } ∧
          (∀ j : Fin 16, t.slots[j] =
            if j = i then call.queuedAt s.callUnit.nextArrival else s.slots[j]) ∧
          ∀ d, s.slots[i].card = some d → t.endedWith d .cut s.slots[i].repeatsDone)) ∧
  ∀ (c : CardId) (call placed : SlotRecord) (s : State), s.memoryOk = true → s.cardsSound →
    s.takes .call c → callParameters s c = .ok call →
    placed = { call with zones := s.allowedZones call.priority call.zones } → placed.zones ≠ 0 →
    (∀ i, s.mergesWith placed i →
      (∀ j, s.mergesWith placed j → j ≠ i → s.ranksAhead i j = true) →
      completes .call s fun t =>
        SameBut (endPieces ++ callPieces) s t ∧ t.endedWith c .ok i.val) ∧
    ((∀ j, ¬ s.mergesWith placed j) → (∀ j : Fin 16, s.slots[j].state ≠ .free) →
      placed.priority ≠ .emergency ∨
        (∀ j : Fin 16, s.slots[j].state = .queued → s.slots[j].priority = .emergency) →
      completes .call s fun t =>
        endsOnly c .busy 0 s t) ∧
    ∀ i z, (∀ j : Fin 16, s.slots[j].state ≠ .queued) → s.firstFree i →
      placed.priority ≠ .emergency → hasZone placed.zones z = true → s.channels[z].holder ≠ none →
      completes .call s fun t =>
        SameBut (endPieces ++ [.slots, .callUnit]) s t ∧ t.cardState c = .taken ∧
        t.callUnit = { s.callUnit with nextArrival := s.callUnit.nextArrival + 1 } ∧
        ∀ j : Fin 16, t.slots[j] =
          if j = i then placed.queuedAt s.callUnit.nextArrival else s.slots[j]

/-- CALL STOP ends the call: its slot is free, its channels with STOP, sent URGENT to their call stations, and
its card ends CANCELLED with its repeats done; a FREE slot is refused WRONG STATE (R36, R37, R158). That clip,
chime flag and token are 0 beside STOP in the image of a call station is the model's reading (LOG 13). -/
def Obligations.CallStopFreesItsSlot : Prop :=
  ∀ (c : CardId) (i : Fin 16) (s : State), s.memoryOk = true → s.takes .callStop c →
    s.cardTarget c = i.val →
    (s.slots[i].state ≠ .free →
      completes .callStop s fun t =>
        SameBut (endPieces ++ callPieces) s t ∧ t.endedWith c .ok 0 ∧ stopsCall i s t) ∧
    (s.slots[i].state = .free →
      completes .callStop s fun t =>
        endsOnly c .wrongState 0 s t)

/-! ### The watch unit -/

/-- The evaluation of watch channels. The subject and its number name a record, and the value tested is a word of
that record's fields as it stands: the state, the position, or the alarm bit (R163). An armed channel tests the field it watches at each rewrite of its
record and trips when it comes to match; an INDEPENDENT trip counts and takes its action; in SEQUENCE a trip
of A marks A-seen, and a trip of B counts, acts and clears A-seen while A-seen is set; a POST posts its action
card unless it is POSTED or TAKEN, which sets overrun (R163 to R167). At a rewrite the armed channels that
watch the record are evaluated in ascending order, and each channel that changes is rewritten (R165, R172).
Over every command but those that set channels, an armed INDEPENDENT channel is evaluated exactly when its
record is rewritten for a change, at the end of the event (LOG 8 to LOG 10): with one rewrite it trips if the
value the record shows matches and the last did not; with more than one, at the commands that take hand-overs
early, it trips once at each at most. -/
def Obligations.RewritesAreEvaluated : Prop :=
  (∀ (w : WatchRecord) (id : RecordId), w.record? = some id ↔
    match w.subject, id with
    | .doorState, .door d => w.number.toNat = d.val + 1
    | .rampState, .ramp r | .rampPosition, .ramp r => w.number.toNat = r.val + 1
    | .zoneState, .zone z | .zoneAlarm, .zone z => w.number.toNat = z.val + 1
    | .packState, .pack p => w.number.toNat = p.val + 1
    | .stationState, .station i => w.number.toNat = i.val + 1
    | _, _ => False) ∧
  (∀ (w : WatchRecord) (id : RecordId) (s : State), w.record? = some id →
    s.subjectValue w.subject id = (s.view id).getD
      (match w.subject with
        | .doorState => 1
        | .stationState => 2
        | .rampPosition => 6
        | .zoneAlarm => 4
        | _ => 0) 0) ∧
  (∀ (k a : Fin 8) (id : RecordId) (trips counts acts : Bool) (s : State),
    s.watch[k].record? = some id → a.val = k.val - k.val % 2 →
    trips = (s.watch[k].matches (s.subjectValue s.watch[k].subject id) && !s.watch[k].lastMatching) →
    counts = (trips && (!s.watch[k].sequence || decide (k = a) || s.watch[a].aSeen)) →
    acts = (trips && s.watch[k].post &&
      (!s.watch[k].sequence || (decide (k ≠ a) && s.watch[a].aSeen))) →
    ∀ t, t = evaluateChannel k s →
      SameBut [.watch, .shadow, .intake] s t ∧
      (∀ j, t.watch[j] =
        if j = k then
          { s.watch[k] with
            lastMatching := s.watch[k].matches (s.subjectValue s.watch[k].subject id)
            matched := s.watch[k].matched || counts
            tripCount := if counts then s.watch[k].tripCount + 1 else s.watch[k].tripCount
            aSeen := s.watch[k].aSeen || (trips && s.watch[k].sequence && decide (k = a))
            overrun := s.watch[k].overrun || (acts && (List.finRange 8).any fun n =>
              s.watch[k].actionCard == BitVec.ofNat 16 n.val &&
                (s.cardState (actionCard n) == .posted || s.cardState (actionCard n) == .taken)) }
        else if j = a ∧ counts = true ∧ s.watch[k].sequence = true then
          { s.watch[a] with aSeen := false }
        else s.watch[j]) ∧
      (∀ n : Fin 8, acts = true → s.watch[k].actionCard = BitVec.ofNat 16 n.val →
        s.cardState (actionCard n) ≠ .posted → s.cardState (actionCard n) ≠ .taken →
        t.cards = { s.cards with
          shadow := s.cards.shadow.set (actionCard n) .posted
          intake := s.cards.intake ++ [actionCard n] }) ∧
      ((acts = false ∨ ∀ n : Fin 8, s.watch[k].actionCard = BitVec.ofNat 16 n.val →
          s.cardState (actionCard n) = .posted ∨ s.cardState (actionCard n) = .taken) →
        t.cards = s.cards)) ∧
  (∀ (id : RecordId) (s : State), evaluateRecord id s =
    (List.finRange 8).foldl (fun s k =>
      if s.watch[k].armed = true ∧ s.watch[k].record? = some id then evaluateChannel k s else s) s) ∧
  (∀ (id : RecordId) (s : State), (∀ k, id ≠ .watch k) →
    SameBut [.attention, .watch, .shadow, .intake, .counts] s (rewriteWatched id s) ∧
    (rewriteWatched id s).watch = (evaluateRecord id s).watch ∧
    (rewriteWatched id s).cards = (evaluateRecord id s).cards ∧
    (rewriteWatched id s).changeCount id = s.changeCount id + 2 ∧
    (rewriteWatched id s).hasFlag id.flag = true ∧
    ∀ k : Fin 8,
      ((rewriteWatched id s).watch[k].view = s.watch[k].view →
        (rewriteWatched id s).changeCount (.watch k) = s.changeCount (.watch k)) ∧
      ((rewriteWatched id s).watch[k].view ≠ s.watch[k].view →
        (rewriteWatched id s).changeCount (.watch k) = s.changeCount (.watch k) + 2 ∧
          (rewriteWatched id s).hasFlag .watch = true)) ∧
  ∀ (c : Instr) (k : Fin 8) (id : RecordId) (s t : State), exec c s = .next t →
    (match c with
      | .restartCommand _ | .powerOnReset _ _ _ | .loadTable | .startDeck | .watchArm | .watchDisarm
      | .watchClear => False
      | .portControlEnables v => hasRestartCode v = false
      | _ => True) →
    s.watch[k].armed = true → s.pairArmed k = false → s.watch[k].record? = some id →
    ∃ (n trips : Nat) (overrun : Bool), n ≤ eventsAtMost c ∧ trips ≤ n ∧
      t.changeCount id = s.changeCount id + BitVec.ofNat 16 (2 * n) ∧
      (n = 0 → t.view id = s.view id ∧ t.watch[k] = s.watch[k]) ∧
      (n ≠ 0 → t.watch[k] =
        { s.watch[k] with
          lastMatching := s.watch[k].matches (t.subjectValue s.watch[k].subject id)
          matched := s.watch[k].matched || trips != 0, overrun := overrun
          tripCount := s.watch[k].tripCount + BitVec.ofNat 16 trips }) ∧
      (n = 1 → (trips = 1 ↔ s.watch[k].matches (t.subjectValue s.watch[k].subject id) = true ∧
        s.watch[k].lastMatching = false))

/-- WATCH ARM: the card's parameters give the fields, or the first that fails (R168). INDEPENDENT: the fields are stored, the flags cleared, the trip count 0, and the channel
is armed and evaluated at once against its record as it stands, its action taken if that matches; a channel of
a pair armed in SEQUENCE is BUSY (R168). SEQUENCE arming takes two orders (R169): on B the fields are stored
and nothing is armed, but BUSY while it is armed so; on A, WRONG STATE with B's number while B does not store
SEQUENCE, else both are armed and evaluated, A first. An action card whose own order arms a channel that posts
it is still TAKEN at the trip, which sets overrun: the model's choice (LOG 54). WATCH DISARM disarms, a pair
in SEQUENCE whole (R170; LOG 30). The premise is the invariant of StepKeepsTheLineAtWork: no other record is
rewritten at the same command. -/
def Obligations.WatchArmAndDisarm : Prop :=
  (∀ (c : CardId) (s : State), armFields s c =
    match firstOf (parameterErrors .watchArm (s.cardParameter c)) with
    | some n => .error n
    | none => .ok (channelOf (s.cardParameter c))) ∧
  ∀ (c : CardId) (k a b : Fin 8) (s : State), s.memoryOk = true → s.lineRests → s.cardTarget c = k.val →
    a.val = k.val - k.val % 2 → b.val = a.val + 1 →
    (∀ f hit, s.takes .watchArm c → armFields s c = .ok f → f.sequence = false →
      hit = s.matchesNow f →
      (s.pairArmed k = false →
        completes .watchArm s fun t =>
          SameBut (endPieces ++ cardPieces) s t ∧ t.endedWith c .ok 0 ∧
          (∀ j, t.watch[j] =
            if j = k then
              { f with
                armed := true, lastMatching := hit, matched := hit, aSeen := false
                tripCount := if hit then 1 else 0
                overrun := hit && f.post && s.actionInUse f.actionCard }
            else s.watch[j]) ∧
          ∀ n : Fin 8, hit = true → f.post = true → f.actionCard = BitVec.ofNat 16 n.val →
            s.actionInUse f.actionCard = false →
            t.cardState (actionCard n) = .posted ∧ actionCard n ∈ t.cards.intake) ∧
      (s.pairArmed k = true →
        completes .watchArm s fun t =>
          endsOnly c .busy 0 s t)) ∧
    (∀ f, s.takes .watchArm c → armFields s c = .ok f → f.sequence = true → k = b →
      (s.watch[k].inSequence = false →
        completes .watchArm s fun t =>
          SameBut (endPieces ++ cardPieces) s t ∧ t.endedWith c .ok 0 ∧
          ∀ j, t.watch[j] =
            if j = k then
              { f with
                armed := false, lastMatching := s.watch[k].lastMatching, matched := false
                aSeen := false, overrun := false, tripCount := 0 }
            else s.watch[j]) ∧
      (s.watch[k].inSequence = true →
        completes .watchArm s fun t =>
          endsOnly c .busy 0 s t)) ∧
    (∀ f hitA hitB, s.takes .watchArm c → armFields s c = .ok f → f.sequence = true → k = a →
      hitA = s.matchesNow f → hitB = s.matchesNow s.watch[b] →
      (s.watch[b].sequence = true →
        completes .watchArm s fun t =>
          SameBut (endPieces ++ cardPieces) s t ∧ t.endedWith c .ok 0 ∧
          ∀ j, t.watch[j] =
            if j = a then
              { f with
                armed := true, lastMatching := hitA, matched := hitA, aSeen := hitA && !hitB
                overrun := false, tripCount := if hitA then 1 else 0 }
            else if j = b then
              { s.watch[b] with
                armed := true, lastMatching := hitB, matched := hitA && hitB, aSeen := false
                tripCount := if hitA && hitB then 1 else 0
                overrun := hitA && hitB && s.watch[b].post && s.actionInUse s.watch[b].actionCard }
            else s.watch[j]) ∧
      (s.watch[b].sequence = false →
        completes .watchArm s fun t =>
          endsOnly c .wrongState b.val s t)) ∧
    (s.takes .watchDisarm c →
      completes .watchDisarm s fun t =>
        SameBut (endPieces ++ cardPieces) s t ∧ t.endedWith c .ok 0 ∧
        ∀ j, t.watch[j] =
          if j = k ∨ (s.pairArmed k = true ∧ (j = a ∨ j = b)) then
            { s.watch[j] with armed := false, aSeen := false }
          else s.watch[j])

/-- WATCH CLEAR clears the flags of its channel and nothing else of any channel (R171). The premise is the
invariant of StepKeepsTheLineAtWork: no other record is rewritten at the same command. -/
def Obligations.WatchClearClearsTheFlags : Prop :=
  ∀ (c : CardId) (k : Fin 8) (s : State), s.memoryOk = true → s.lineRests →
    s.takes .watchClear c → s.cardTarget c = k.val →
    completes .watchClear s fun t =>
      SameBut (endPieces ++ cardPieces) s t ∧ t.endedWith c .ok 0 ∧
      ∀ j : Fin 8, t.watch[j] =
        if j = k then { s.watch[k] with matched := false, aSeen := false, overrun := false }
        else s.watch[j]

/-- The test of a watched value (R164). -/
def Obligations.WatchTestCompares : Prop :=
  ∀ (w : WatchRecord) (v : Word),
    (w.test = .equal → (w.matches v = true ↔
      ∀ i : Fin 16, w.mask.getLsbD i.val = true → v.getLsbD i.val = w.reference.getLsbD i.val)) ∧
    (w.test = .atLeast → (w.matches v = true ↔ w.reference.toNat ≤ v.toNat)) ∧
    (w.test = .atMost → (w.matches v = true ↔ v.toNat ≤ w.reference.toNat)) ∧
    (w.test = .equal → w.mask = 0 → w.matches v = true)

/-! ### The deck stop -/

/-- The deck stop pin: a change of level restarts the filter; 8 ms of release make the filtered level released
and set STOP, and no ramp and no door moves (R84). The deck clock at the release is the model's reading (LOG
5), and that an impossible release changes nothing its choice (LOG 4). When the filtered level becomes
asserted STOP is set, every MOVING ramp is held, and every door that opens stops (R84, R85, R122). The premise
on the line is the invariant of StepKeepsTheLineAtWork. -/
def Obligations.DeckStopStopsTheDeck : Prop :=
  ((∀ (level : Bool) (s : State), s.pins.stopPin ≠ level →
    exec (.deckStopPinChange level) s =
      .next { s with pins := { s.pins with stopPin := level, stopSince := s.clock } }) ∧
  (∀ (level : Bool) (s : State), s.pins.stopPin = level →
    exec (.deckStopPinChange level) s = .next s) ∧
  (∀ s : State, s.lineRests → s.pins.stopPin = false → s.pins.stopLevel = true →
    exec .deckStopReleased s = .next
      { s with
        clock := (clockReaches s.pins.stopSince 8 s).clock
        pins := { s.pins with stopLevel := false }
        attention := s.attention ||| Flag.stop.mask }) ∧
  ∀ s : State, s.lineRests → s.pins.stopPin = true ∨ s.pins.stopLevel = false →
    exec .deckStopReleased s = .next s) ∧
  ∀ s : State, s.pins.stopPin = true → s.pins.stopLevel = false →
    completes .deckStopAsserted s fun t =>
      SameBut (endPieces ++ deckPieces ++ [.clock, .pins]) s t ∧
      t.pins = { s.pins with stopLevel := true } ∧ t.hasFlag .stop = true ∧
      (∀ r e, s.rampEntry r = some e → s.ramps[r].state = .moving →
        t.ramps[r] = { s.ramps[r].stopped .held .held with holdCause := .deckStop }) ∧
      (∀ r : Fin 4, s.ramps[r].state ≠ .moving → t.ramps[r] = s.ramps[r]) ∧
      ∀ d e, s.doorEntry d = some e → s.doors[d].demand = .openDoor → s.doors[d].origin ≠ .zone →
        t.doors[d].demand = .none ∧ t.doors[d].state = s.doors[d].switchState ∧
        t.doors[d].lastOutcome = some .stopped

/-! ### The deck line -/

/-- A frame sent opens the answer window; the pause after a WAIT ends in the same frame again (R8, R10).
Settling ends in the further attempt of the SET under way, with a new sequence number if the entry's image has
changed (R11 to R13); with none the line is idle and chooses (R20). Nothing else changes. -/
def Obligations.LineSendsPausesAndSettles : Prop :=
  (∀ s : State, s.line.mode = .sending →
    exec .frameSent s = .next { s with line := { s.line with mode := .listening } }) ∧
  (∀ s : State, s.line.mode = .paused →
    exec .pauseEnd s = .next { s with line := { s.line with mode := .sending } }) ∧
  (∀ (tr : Transaction) (e : PendingSet) (s : State), s.line.mode = .settling →
    s.line.transaction = some tr → s.line.entry? tr.station = some e →
    completes .settlingEnd s fun t =>
      SameBut endPieces s t ∧ t.line.mode = .sending ∧
      ∃ q, q = (if e.image = tr.image then tr.sequence else s.stations[tr.station].sequence + 1) ∧
        t.stations[tr.station].sequence = q ∧
        t.line.transaction = some
          { tr with
            attempts := tr.attempts + 1, sequence := q, image := e.image, waited := false
            frame := frameBytes (stationAddress tr.station) kindSet
              (q :: imageBytes (s.stationKind tr.station) e.image) }) ∧
  ∀ s : State, s.line.mode = .settling → s.line.transaction = none →
    completes .settlingEnd s fun t =>
      SameBut endPieces s t ∧
      t.line =
        (chooseTransaction { s with line := { s.line with mode := .idle, settleTime := 0 } }).line

/-- The idle line chooses the oldest URGENT entry, after a POLL the oldest entry, and otherwise a poll (R20); a
new SET advances its station's sequence number (R13). A roster visit polls the first station that qualifies
from the roster position on, over four wraps, a LOST one at cycle count 0 alone (R21); a fast visit polls the
station of a moving ramp with the smallest address above the fast position, or else the smallest (R22). A poll
is taken from the side of the mark if that side has a station to visit, else from the other, and the mark is
set to the side not used (R22). With no station on either side nothing begins. -/
def Obligations.LineChoosesItsTransaction : Prop :=
  (∀ (e : PendingSet) (s : State), s.line.mode = .idle →
    s.line.pending.find? (·.urgent) = some e ∨
      (s.line.pending.find? (·.urgent) = none ∧ s.line.lastWasPoll = true ∧
        s.line.pending.head? = some e) →
    ∃ tr, (chooseTransaction s).line.transaction = some tr ∧ tr.isSet = true ∧
      tr.station = e.station ∧ tr.image = e.image ∧ tr.attempts = 1 ∧
      tr.sequence = s.stations[e.station].sequence + 1 ∧
      (chooseTransaction s).stations[e.station].sequence = tr.sequence) ∧
  (∀ (i p : Fin 48) (c : Fin 4) (s : State), s.rosterVisit = some (i, p, c) ↔
    ∃ k, k < 192 ∧ i = (s.rosterStop k).1 ∧ (p, c) = s.rosterStop (k + 1) ∧
      s.isVisited (s.rosterStop k) ∧ ∀ j, j < k → ¬ s.isVisited (s.rosterStop j)) ∧
  (∀ s : State, s.rosterVisit = none ↔
    ∀ i : Fin 48, s.stationKind i = .none ∨ s.stations[i].state = .disabled) ∧
  (∀ (i : Fin 48) (s : State), s.fastVisit = some i ↔ s.isFast i ∧
    ((s.line.fastPos < deckNumber i ∧ ∀ j, s.isFast j → s.line.fastPos < deckNumber j → i ≤ j) ∨
      ((∀ j, s.isFast j → deckNumber j ≤ s.line.fastPos) ∧ ∀ j, s.isFast j → i ≤ j))) ∧
  ∀ s : State, s.line.mode = .idle → s.line.chooseEntry = none →
    (∀ i p c, s.rosterVisit = some (i, p, c) → s.line.nextSide = .roster ∨ s.fastVisit = none →
      chooseTransaction s =
        { s with line := { s.line with
            mode := .sending, transaction := some (pollOf i), rosterPos := p, cycle := c
            nextSide := .fast } }) ∧
    (∀ i, s.fastVisit = some i → s.line.nextSide = .fast ∨ s.rosterVisit = none →
      chooseTransaction s =
        { s with line := { s.line with
            mode := .sending, transaction := some (pollOf i), fastPos := deckNumber i
            nextSide := .roster } }) ∧
    (s.rosterVisit = none → s.fastVisit = none → chooseTransaction s = s)

/-- An answer settles the line: 4 bit times, or 10 after a CORRUPT attempt; a first WAIT pauses it, and a second
ends the attempt with NO ANSWER, as a NAK ends it NAKED; a SET with attempts left stays in flight (R9 to R12). A station owed a SET is owed none after its answer: at a POLL its current image is on the list, with the
owed mark; at a SET its mark goes (R18). The entry of an answered SET leaves the list, or stays as it is when
its image is no longer the one the station has acknowledged (R17); with a removal requested it leaves (R19).
The premise on the images is the invariant of OutputsFollowTheDoors. The deck clock moves on by the time the
command carries (LOG 6). -/
def Obligations.AnswersSettleTheLine : Prop :=
  ∀ (tr : Transaction) (rx : Reception) (ms : Clock) (s : State),
    s.line.mode = .listening ∨ s.line.mode = .receiving → s.line.transaction = some tr →
    rx.beginsInWindow = true → tr.discard = false →
    (∀ payload, tr.isSet = false →
      judgeAnswer (s.stationKind tr.station) tr (receiveFrame rx) = .answered payload →
      completes (.answerReceived rx ms) s fun t =>
        SameBut (endPieces ++ deckPieces ++ [.clock, .stationRest]) s t ∧
        t.clock = s.clock + ms ∧ t.line.mode = .settling ∧ t.line.settleTime = 4 ∧
        t.line.transaction = none ∧ t.line.lastWasPoll = true ∧ t.line.owed[tr.station] = none ∧
        ∀ urgent, s.line.owed[tr.station] = some urgent → (s.stationKind tr.station).takesSets = true →
          ∃ e, t.line.entry? tr.station = some e ∧ e.image = t.stations[tr.station].image ∧
            (urgent = true → e.urgent = true)) ∧
    (∀ payload, tr.isSet = true →
      judgeAnswer (s.stationKind tr.station) tr (receiveFrame rx) = .answered payload →
      completes (.answerReceived rx ms) s fun t =>
        SameBut (endPieces ++ deckPieces ++ [.clock, .stationRest]) s t ∧
        t.clock = s.clock + ms ∧ t.line.mode = .settling ∧ t.line.settleTime = 4 ∧
        t.line.transaction = none ∧ t.line.lastWasPoll = false ∧ t.line.owed[tr.station] = none ∧
        ∀ e, s.imagesFollow → s.line.entry? tr.station = some e → t.line.entry? tr.station =
          if e.image = tr.image ∨ tr.removal = true then none else some e) ∧
    (tr.isSet = true → tr.attempts < 3 → tr.removal = false →
      judgeAnswer (s.stationKind tr.station) tr (receiveFrame rx) = .corrupt →
      exec (.answerReceived rx ms) s = .next
        { s with
          clock := s.clock + ms
          line := { s.line with
            mode := .settling, settleTime := 10
            transaction := some { tr with last := .corrupt } } }) ∧
    (∀ o j, (j = .naked ∧ o = .naked) ∨ (j = .waited ∧ tr.waited = true ∧ o = .noAnswer) →
      tr.isSet = true → tr.attempts < 3 → tr.removal = false →
      judgeAnswer (s.stationKind tr.station) tr (receiveFrame rx) = j →
      exec (.answerReceived rx ms) s = .next
        { s with
          clock := s.clock + ms
          line := { s.line with
            mode := .settling, settleTime := 4
            transaction := some { tr with last := o } } }) ∧
    (judgeAnswer (s.stationKind tr.station) tr (receiveFrame rx) = .waited → tr.waited = false →
      tr.removal = false →
      exec (.answerReceived rx ms) s = .next
        { s with
          clock := s.clock + ms
          line := { s.line with
            mode := .paused, transaction := some { tr with waited := true } } })

/-- A report handed over: by the station's state it is discarded, adopted whole, put to confirmation or begins
a rejoin (R27, R29, R31, R32, R34). No answer to a POLL: the line settles for 4 bit times, and the third miss
in a row takes the station to LOST (R12, R28). A SET with attempts left stays in flight (R11). No other
station's record changes. An acknowledgement handed over: the miss count is 0, an ABSENT station and one that
rejoins enter PRESENT, and the owner learns of the delivery (R30, R34, R35): a STARTING pack's pump run is
delivered (R50), a park reaches the deck and the pack passes to the requester it is designated to (R46 to
R48), and a PLAY with the channel's token plays (R155). A LOST station with no rejoin pending has no SET in
flight (R19), and R30 names none. An attempt that is the last one and fails, whatever its outcome: the line
settles and the miss counts as one for a POLL does (R11, R12, R28); with a SET the entry that still holds the
image sent leaves the list and the station is owed it, with the entry's mark (R17, R18), but for a station
that the miss takes to LOST or out of its rejoin: its entry and its owed mark go (R19, R28). The premise on
the rejoin marks is the invariant of StepKeepsTheLineAtWork. The model's readings and choices: the clock moves on
by the time an answer carries (LOG 6); at a delivery a pack is READY by the pressure its record holds (LOG 49); a
park is heard at the station that the ramp's entry names now, on whichever pack the ramp holds parked (LOG 53);
and the grant to the requester the pack passes to is in flight after it (LOG 7). -/
def Obligations.ReportsAndMissesAtTheStation : Prop :=
  (∀ (tr : Transaction) (rx : Reception) (ms : Clock) (payload : List Byte) (s : State),
    s.line.mode = .listening → s.line.transaction = some tr → rx.beginsInWindow = true →
    tr.discard = false → tr.isSet = false →
    judgeAnswer (s.stationKind tr.station) tr (receiveFrame rx) = .answered payload →
    completes (.answerReceived rx ms) s fun t =>
      (∀ i, i ≠ tr.station → t.stations[i].rest = s.stations[i].rest) ∧
      t.stations[tr.station].rest =
        (let r := s.stations[tr.station].rest
         let kind := s.stationKind tr.station
         let inputs := reportWord payload &&& kind.inputMask
         let count : Byte := if kind.hasCount then (reportWord payload).setWidth 8 else 0
         let whole :=
           { r with
             state := .present, missCount := 0, reportAwaited := false, confirmed := inputs
             lastCount := count, candidate := none, repeatCount := 0 }
         let run := if r.candidate = some inputs then r.repeatCount + 1 else 1
         match r.state with
         | .disabled => r
         | .absent => whole
         | .present =>
           if r.reportAwaited then whole
           else if inputs = r.confirmed then
             { r with missCount := 0, lastCount := count, candidate := none, repeatCount := 0 }
           else if s.tables.stations[tr.station].confirmCount ≤ run then
             { r with
               missCount := 0, lastCount := count, confirmed := inputs, candidate := none
               repeatCount := 0 }
           else
             { r with missCount := 0, lastCount := count, candidate := some inputs, repeatCount := run }
         | .lost =>
           if r.rejoinPending then { r with missCount := 0 }
           else if kind.takesSets then { r with missCount := 0, rejoinPending := true }
           else { r with missCount := 0, state := .present })) ∧
  (∀ (tr : Transaction) (rx : Reception) (ms : Clock) (payload : List Byte) (s : State),
    s.line.mode = .listening → s.line.transaction = some tr → rx.beginsInWindow = true →
    tr.discard = false → tr.isSet = true →
    judgeAnswer (s.stationKind tr.station) tr (receiveFrame rx) = .answered payload →
    completes (.answerReceived rx ms) s fun t =>
      (∀ i, i ≠ tr.station → t.stations[i].rest = s.stations[i].rest) ∧
      (s.stations[tr.station].state ≠ .lost ∨ s.stations[tr.station].rejoinPending = true →
        t.stations[tr.station].rest =
          (let r := s.stations[tr.station].rest
           match r.state with
           | .disabled => r
           | .absent => { r with missCount := 0, state := .present }
           | .present => { r with missCount := 0 }
           | .lost =>
             { r with missCount := 0, state := .present, rejoinPending := false, reportAwaited := true })) ∧
      (s.stations[tr.station].state ≠ .disabled →
        (∀ p, s.isPackStation tr.station p → s.packs[p].state = .starting →
          tr.image.getLsbD 0 = true →
          t.packs[p].pumpDelivered = true ∧
            t.packs[p].state = if s.packs[p].pressureReady then .ready else .starting) ∧
        (∀ r p, s.isRampStation tr.station r → imageByte tr.image 0 = 0 →
          s.packs[p].holder = some (.ramp r) → s.packs[p].parked = true → s.packs[p].state = .ready →
          (s.packs[p].requests = [] → t.packs[p].holder = some (.ramp r) ∧ t.packs[p].parked = true ∧
            t.packs[p].parkOnDeck = true) ∧
          ∀ q, designate s.packs[p].requests = some q →
            t.packs[p].holder = some q ∧ t.packs[p].parked = false ∧ t.inFlight (.grant p q) = true) ∧
        ∀ z n, s.isCallStation tr.station z → s.channels[z].holder = some n →
          s.slots[n].state = .playing → s.channels[z].progress = .sent →
          imageByte tr.image 0 = 1 → imageByte tr.image 3 = s.channels[z].token →
          t.channels[z] =
            { s.channels[z] with
              progress := .playing, reference := s.stations[tr.station].lastCount })) ∧
  (∀ (tr : Transaction) (c : Instr) (o : LineOutcome) (ms : Clock) (s : State),
    s.attemptFails tr c o ms → tr.discard = false → tr.isSet = false ∨ 3 ≤ tr.attempts →
    tr.removal = false →
    completes c s fun t =>
      SameBut (endPieces ++ deckPieces ++ [.clock, .stationRest]) s t ∧ t.clock = s.clock + ms ∧
      t.line.mode = .settling ∧ t.line.settleTime = (if o = .corrupt then 10 else 4) ∧
      t.line.transaction = none ∧ t.line.lastWasPoll = !tr.isSet ∧
      (∀ i, i ≠ tr.station → t.stations[i].rest = s.stations[i].rest) ∧
      t.stations[tr.station].rest = s.stations[tr.station].rest.missed ∧
      ∀ e, tr.isSet = true → s.rejoinsLost → s.line.entry? tr.station = some e →
        t.line.entry? tr.station =
          (if s.stations[tr.station].removedByMiss ∨ e.image = tr.image then none else some e) ∧
        t.line.owed[tr.station] =
          if s.stations[tr.station].removedByMiss then none
          else if e.image = tr.image then some e.urgent else s.line.owed[tr.station]) ∧
  ∀ (tr : Transaction) (s : State), s.line.mode = .listening → s.line.transaction = some tr →
    tr.discard = false →
    (tr.isSet = false →
      completes .noAnswer s fun t =>
        SameBut (endPieces ++ deckPieces ++ [.stationRest]) s t ∧
        t.line.mode = .settling ∧ t.line.settleTime = 4 ∧ t.line.transaction = none ∧
        (∀ i, i ≠ tr.station → t.stations[i].rest = s.stations[i].rest) ∧
        t.stations[tr.station].rest =
          (let r := s.stations[tr.station].rest
           match r.state with
           | .disabled => r
           | .absent | .present =>
             if r.missCount + 1 < 3 then { r with missCount := r.missCount + 1 }
             else
               { r with
                 state := .lost, missCount := 3, candidate := none, repeatCount := 0
                 reportAwaited := true }
           | .lost =>
             if r.rejoinPending then { r with rejoinPending := false, missCount := 3 } else r)) ∧
    (tr.isSet = true → tr.attempts < 3 → tr.removal = false →
      exec .noAnswer s = .next
        { s with line := { s.line with
            mode := .settling, settleTime := 4
            transaction := some { tr with last := .noAnswer } } })

/-- A hand-over for a DISABLED station is discarded (R27). -/
def Obligations.HandOverForDisabledIsDiscarded : Prop :=
  ∀ (t : Transaction) (o : LineOutcome) (payload : List Byte) (s : State),
    s.stations[t.station].state = .disabled → takeHandOver t o payload s = s

/-- The line idles at mark; a character is a start bit low, 8 data bits with the least significant first, and
a stop bit high; a frame is driven from its first bit time to the end of its last stop bit, and while it is
the part hears nothing; a character whose stop bit is low is a framing fault (R2). A frame sent well is
received whole as it was sent, a report, an acknowledgement and a WAIT are judged as what they are, and a
frame with another CRC is CORRUPT (R3, R4, R5, R7, R9). The CRC is taken byte by byte from 0, and that of one
byte is the sum of the remainders of x^8 to x^15 by x^8 + x^2 + x + 1 that its bits select (R4). That the
receive line has one level in each bit time is the model's choice (LOG 48), as is that the command moves the
deck clock on by the time it carries, also while the part sends and hears nothing (LOG 6). -/
def Obligations.FramesAreReceivedAsSent : Prop :=
  (∀ b : Byte, characterLevels b =
    [false, b.getLsbD 0, b.getLsbD 1, b.getLsbD 2, b.getLsbD 3, b.getLsbD 4, b.getLsbD 5, b.getLsbD 6,
      b.getLsbD 7, true]) ∧
  (∀ frame : List Byte, (frameLevels frame).length = frameBitTimes frame) ∧
  (∀ (l : Line) (n : Nat),
    (∀ tr, l.mode = .sending → l.transaction = some tr →
      l.driverEnable = true ∧ l.transmitLevel n = (frameLevels tr.frame).getD n true) ∧
    (l.mode ≠ .sending → l.driverEnable = false ∧ l.transmitLevel n = true)) ∧
  (∀ (rx : Reception) (ms : Clock) (s : State), s.line.mode = .sending →
    exec (.answerReceived rx ms) s = .next { s with clock := s.clock + ms }) ∧
  (∀ (n gap g : Nat) (b : Byte) (rest : List RxItem),
    takeCharacters (n + 1) gap (.char g b false :: rest) = none) ∧
  (∀ (b : Byte) (n : Nat) (rest : List Bool), b ≠ 0 →
    (sampleLevels (n + 1) 0 ((characterLevels b).set 9 false ++ rest)).head? = some (.char 0 b false)) ∧
  (∀ bytes : List Byte, crc (bytes ++ [crc bytes]) = 0) ∧
  crc [] = 0 ∧ (∀ (bytes : List Byte) (b : Byte), crc (bytes ++ [b]) = crc [crc bytes ^^^ b]) ∧
  (∀ b : Byte, crc [b] =
    (([0x07, 0x0E, 0x1C, 0x38, 0x70, 0xE0, 0xC7, 0x89] : List Byte).zipIdx.filter fun x =>
      b.getLsbD x.2).foldl (fun sum x => sum ^^^ x.1) 0) ∧
  (∀ (address kind : Byte) (payload : List Byte), payload.length ≤ 16 →
    receiveFrame (cleanAnswer (frameBytes address kind payload)) =
      some (frameBytes address kind payload)) ∧
  (∀ (k : StationKind) (tr : Transaction) (payload : List Byte), tr.isSet = false →
    payload.length = k.reportLength →
    judgeAnswer k tr (some (frameBytes (stationAddress tr.station) kindReport payload)) =
      .answered payload) ∧
  (∀ (k : StationKind) (tr : Transaction), tr.isSet = true →
    judgeAnswer k tr (some (frameBytes (stationAddress tr.station) kindAck [tr.sequence])) =
      .answered [tr.sequence]) ∧
  (∀ (k : StationKind) (tr : Transaction),
    judgeAnswer k tr (some (frameBytes (stationAddress tr.station) kindWait [])) = .waited) ∧
  ∀ (k : StationKind) (tr : Transaction) (body : List Byte) (last : Byte), 3 ≤ body.length →
    last ≠ crc body → judgeAnswer k tr (some (body ++ [last])) = .corrupt

/-! ### Ramp reports and timers -/

/-- A report moves the ramp's position: in a running stage by its advance in the program's direction, with a
step back of one mark tolerated and one of more ending the program REVERSED; in every other state at once, and
a ramp at rest takes the state of its switches (R62 to R64, R80). An advance is a mark arrival for pace
computation (R94), at the clock the command moves on to (LOG 6). The reports of a MARK stage, and one at which
a SWITCH stage ends, are left to MarkArrivalsAndLead and to the premise. -/
def Obligations.RampReportsMoveThePosition : Prop :=
  (∀ r : RampRecord, (r.switchState = .stowed ↔ r.stowed = true ∧ r.landed = false) ∧
    (r.switchState = .landed ↔ r.landed = true ∧ r.stowed = false) ∧
    (r.switchState = .stopped ↔ r.stowed = r.landed)) ∧
  ∀ (tr : Transaction) (rx : Reception) (ms : Clock) (payload : List Byte) (r : Fin 4) (e : RampEntry)
    (after : RampRecord) (s : State), s.memoryOk = true → s.bringsCount tr rx payload r e →
    after = s.ramps[r].counted e ((reportWord payload).setWidth 8) s.stations[tr.station].confirmed →
    (s.ramps[r].state = .stowed ∨ s.ramps[r].state = .landed ∨ s.ramps[r].state = .stopped →
      completes (.answerReceived rx ms) s fun t =>
        SameBut (endPieces ++ deckPieces ++ [.clock, .stationRest]) s t ∧
        t.ramps[r] = { after with state := after.switchState }) ∧
    (s.ramps[r].state = .held ∨ s.ramps[r].state = .fault ∨ s.ramps[r].state = .off ∨
        (s.ramps[r].state = .moving ∧ s.ramps[r].stage = 0) →
      completes (.answerReceived rx ms) s fun t =>
        SameBut (endPieces ++ [.clock, .stationRest, .lineList, .ramps]) s t ∧
        ∀ r', t.ramps[r'] = if r' = r then after else s.ramps[r']) ∧
    (s.ramps[r].state = .moving → s.ramps[r].stage ≠ 0 →
      (s.ramps[r].advance after.position ≤ -2 →
        completes (.answerReceived rx ms) s fun t =>
          SameBut (endPieces ++ holdPieces ++ [.clock, .stationRest]) s t ∧
          (∀ c, s.ramps[r].card = some c → t.endedWith c .reversed s.ramps[r].programStage) ∧
          ∀ r', t.ramps[r'] =
            if r' = r then { after.stopped .fault .reversed with faultCause := .reversed }
            else s.ramps[r']) ∧
      ((∀ st, s.runningStage r = some st → ∀ landed, st.endCondition = .switch landed →
          after.endSwitch landed = false) →
        (s.ramps[r].advance after.position = -1 ∨ s.ramps[r].advance after.position = 0 →
          completes (.answerReceived rx ms) s fun t =>
            SameBut (endPieces ++ [.clock, .stationRest, .lineList, .ramps]) s t ∧
            ∀ r', t.ramps[r'] = if r' = r then after else s.ramps[r']) ∧
        (1 ≤ s.ramps[r].advance after.position →
          (∀ st, s.runningStage r = some st → ∀ target, st.endCondition ≠ .mark target) →
          completes (.answerReceived rx ms) s fun t =>
            SameBut (endPieces ++ [.clock, .stationRest, .lineList, .ramps]) s t ∧
            ∀ r', t.ramps[r'] =
              if r' = r then
                { after with
                  pace := after.pace.markArrival e (s.ramps[r].advance after.position).toNat
                    (s.clock + ms) }
              else s.ramps[r'])))

/-- A mark arrival: its intervals enter the history, P and the stall limit follow, unless it is the first of
the stage or the blank runs, and the mark timer restarts (R88, R91, R92, R94, R95). In a MARK stage an arrival
at the approach mark starts the lead, or ends the stage when the lead is 0, and one at the target ends it
(R73, R97). The arrival, and the next stage's start, are at the clock the command moves on to (LOG 6); an
interval over a wrap of the clock is taken modulo 2^32 (LOG 23). -/
def Obligations.MarkArrivalsAndLead : Prop :=
  (∀ (pace : PaceRecord) (e : RampEntry) (k : Nat) (now : Clock), 1 ≤ k →
    (pace.firstMarkPending = true ∨ pace.blankTimer ≠ none →
      pace.markArrival e k now = { pace with firstMarkPending := false, markTimer := some now }) ∧
    ∀ start n interval, pace.firstMarkPending = false → pace.blankTimer = none →
      pace.markTimer = some start → n = pace.history.length → n ≠ 0 →
      interval = max 1 (min 65535 (now - start).toNat / k) →
      ∃ history p, history.length = n ∧
        (k ≤ n → history = pace.history.drop k ++ List.replicate k interval) ∧
        (n ≤ k → history = List.replicate n interval) ∧ p = history.sum / n ∧
        pace.markArrival e k now =
          { pace with
            history := history, p := some p, firstMarkPending := false, markTimer := some now
            stallLimit := some (min 65535
              (if pace.warningCount = 0 then p * e.stallMultiple else 2 * p * e.stallMultiple)) }) ∧
  ∀ (tr : Transaction) (rx : Reception) (ms : Clock) (payload : List Byte) (r : Fin 4) (e : RampEntry)
    (st : StageRecord) (target p : Nat) (counted after : RampRecord) (s : State),
    s.bringsCount tr rx payload r e → s.runningStage r = some st → st.endCondition = .mark target →
    s.ramps[r].program = .lower ∨ s.ramps[r].program = .raise →
    counted =
      s.ramps[r].counted e ((reportWord payload).setWidth 8) s.stations[tr.station].confirmed →
    1 ≤ s.ramps[r].advance counted.position →
    after =
      { counted with
        pace := counted.pace.markArrival e (s.ramps[r].advance counted.position).toNat
          (s.clock + ms) } →
    after.pace.p = some p →
    (after.leadStarts target = true → p * e.lead / 128 ≠ 0 →
      completes (.answerReceived rx ms) s fun t =>
        SameBut (endPieces ++ [.clock, .stationRest, .lineList, .ramps]) s t ∧
        ∀ r', t.ramps[r'] =
          if r' = r then
            { after with
              pace := { after.pace with
                l := some (p * e.lead / 128)
                leadTimer := startTimer (s.clock + ms) (p * e.lead / 128) } }
          else s.ramps[r']) ∧
    (after.isShort target = true → after.leadStarts target = false →
      completes (.answerReceived rx ms) s fun t =>
        SameBut (endPieces ++ [.clock, .stationRest, .lineList, .ramps]) s t ∧
        ∀ r', t.ramps[r'] = if r' = r then after else s.ramps[r']) ∧
    (after.isShort target = false ∨ (after.leadStarts target = true ∧ p * e.lead / 128 = 0) →
      (∀ next, st.next ≠ 0 → e.stage? st.next = some next → next.metAtEntry after = false →
        completes (.answerReceived rx ms) s fun t =>
          SameBut (endPieces ++ [.clock, .stationRest, .lineList, .stationImages, .ramps]) s t ∧
          ∀ r', t.ramps[r'] =
            if r' = r then after.inStage e st.next next (s.clock + ms) else s.ramps[r']) ∧
      (st.next = 0 →
        completes (.answerReceived rx ms) s fun t =>
          SameBut (endPieces ++ deckPieces ++ [.clock, .stationRest]) s t ∧
          t.ramps[r] =
            (if after.leadStarts target then { after with pace := { after.pace with l := some 0 } }
              else after).ended))

/-- A running stage ends at the expiry of its duration timer or of its lead timer: the next stage is entered,
or the program ends in the state the switches give (R72, R73, R75, R90, R98). The next stage's valves are the
composed image of the ramp's station and are sent by an ordinary request, and nothing else is; at the end of the
program all valves are off, sent URGENT (R16, R36, R37), and its card ends OK if the switches give the program's
goal and else MISSED END, with the position (R75). The pace at the entry of a stage: with a reseed interval the
history is N copies of it and P that interval, otherwise both are kept; and what is derived from P (R90 to R92).
A stage is met at its entry when its mark is reached or its switch confirmed already (R72). The deck clock at an expiry is the model's reading (LOG 5). -/
def Obligations.StagesEndByTheirTimers : Prop :=
  (∀ (pace : PaceRecord) (e : RampEntry) (st : StageRecord) (now : Clock) (history : List Nat)
    (p : Option Nat),
    (st.reseed = 0 ∧ history = pace.history ∧ p = pace.p) ∨
      (st.reseed ≠ 0 ∧ e.depth ≠ 0 ∧ history = List.replicate e.depth st.reseed ∧ p = some st.reseed) →
    pace.stageEntry e st now = .inStage e history p now) ∧
  (∀ (st : StageRecord) (a : RampRecord), st.metAtEntry a = true ↔
    match st.endCondition with
    | .time _ => False
    | .mark target => (a.program = .lower ∧ target ≤ a.position) ∨
        (a.program = .raise ∧ a.position ≤ target)
    | .switch landed => if landed then a.landed = true else a.stowed = true) ∧
  ∀ (r : Fin 4) (e : RampEntry) (st : StageRecord) (tm : RunningTimer) (c : Instr) (now : Clock) (s : State),
    s.rampEntry r = some e → s.runningStage r = some st →
    (c = .durationTimerExpiry r ∧ s.ramps[r].durationTimer = some tm) ∨
      (c = .leadTimerExpiry r ∧ s.ramps[r].pace.leadTimer = some tm) →
    now = (clockReaches tm.start tm.length s).clock →
    (∀ next, st.next ≠ 0 → e.stage? st.next = some next →
      next.metAtEntry s.ramps[r] = false →
      completes c s fun t =>
        SameBut (endPieces ++ [.clock, .lineList, .stationImages, .ramps]) s t ∧ t.clock = now ∧
        (s.isRampStation e.station r → sendsOnly e.station (next.valves.setWidth 32) false s t) ∧
        ∀ r', t.ramps[r'] =
          if r' = r then s.ramps[r].inStage e st.next next now else s.ramps[r']) ∧
    (st.next = 0 →
      completes c s fun t =>
        SameBut (endPieces ++ deckPieces ++ [.clock]) s t ∧ t.clock = now ∧
        (s.isRampStation e.station r → imageSent e.station 0 true s t) ∧
        t.ramps[r] = s.ramps[r].ended ∧
        ∀ card goal, s.memoryOk = true → s.cardsSound → s.ramps[r].card = some card →
          (s.ramps[r].program = .lower ∧ goal = .landed) ∨
            (s.ramps[r].program = .raise ∧ goal = .stowed) →
          t.endedWith card (if s.ramps[r].switchState = goal then .ok else .missedEnd)
            s.ramps[r].position)

/-- The stage limit, and a stall under HALT or after the one warning, fail the program; its card ends with the
stage, and a running stage parks its valves, sent URGENT (R36, R37, R74, R80, R99, R100). The end of the
blank, and a first stall under WARN, change the pace record alone (R92, R93, R100). The deck clock at an
expiry is the model's reading (LOG 5). -/
def Obligations.StageLimitStallAndBlank : Prop :=
  (∀ (r : Fin 4) (e : RampEntry) (s : State), s.memoryOk = true → s.rampEntry r = some e →
    s.ramps[r].state = .moving →
    (∀ tm, s.ramps[r].limitTimer = some tm →
      completes (.stageLimitExpiry r) s fun t =>
        SameBut (endPieces ++ holdPieces ++ [.clock]) s t ∧
        (∀ c, s.ramps[r].card = some c → t.endedWith c .timedOut s.ramps[r].programStage) ∧
        (s.ramps[r].awaitingGrant = false → s.isRampStation e.station r →
          imageSent e.station 0 true s t) ∧
        ∀ r', t.ramps[r'] =
          if r' = r then { s.ramps[r].stopped .fault .timedOut with faultCause := .timedOut }
          else s.ramps[r']) ∧
    (∀ start limit, s.stallWatch r = some (start, limit) →
      e.warn = false ∨ s.ramps[r].pace.warningCount ≠ 0 →
      completes (.stall r) s fun t =>
        SameBut (endPieces ++ holdPieces ++ [.clock]) s t ∧
        (∀ c, s.ramps[r].card = some c → t.endedWith c .stalled s.ramps[r].programStage) ∧
        (s.ramps[r].awaitingGrant = false → s.isRampStation e.station r →
          imageSent e.station 0 true s t) ∧
        ∀ r', t.ramps[r'] =
          if r' = r then { s.ramps[r].stopped .fault .stalled with faultCause := .stalled }
          else s.ramps[r'])) ∧
  ∀ (r : Fin 4) (s : State),
    (∀ tm, s.ramps[r].pace.blankTimer = some tm →
      completes (.blankTimerExpiry r) s fun t =>
        SameBut (endPieces ++ [.clock, .ramps]) s t ∧
        ∀ r', t.ramps[r'] =
          if r' = r then { s.ramps[r] with pace := { s.ramps[r].pace with blankTimer := none } }
          else s.ramps[r']) ∧
    ∀ e start limit, s.rampEntry r = some e → s.stallWatch r = some (start, limit) → e.warn = true →
      s.ramps[r].pace.warningCount = 0 →
      completes (.stall r) s fun t =>
        SameBut (endPieces ++ [.clock, .ramps]) s t ∧
        ∀ r', t.ramps[r'] =
          if r' = r then
            { s.ramps[r] with
              pace := { s.ramps[r].pace with
                warningCount := 1, firstMarkPending := true, markTimer := some t.clock
                stallLimit := s.ramps[r].pace.p.map fun p => min 65535 (2 * p * e.stallMultiple) } }
          else s.ramps[r']

/-! ### Packs and the notices about them -/

/-- The pack's timers: a pump that is not up in time fails its pack and the ramps that asked for it; the dwell
ends in IDLE when the pack may recover; the park hold switches the pump off (R49, R50, R52, R54 to R56, R83).
Pump run is the composed image of the pack's station: off it is sent URGENT, and on at a pump start by an
ordinary request (R16, R36, R37). A grant notice still in flight is taken first (LOG 8), which the premise
leaves out. Whatever fails a pack, it is FAILED with no holder, and an entry whose requester has neither a
withdrawal nor a grant in flight stays on its list (R55); the one grant in flight is taken (LOG 8). That fault
and pressure are confirmed as the pack's record has them is the model's choice (LOG 49), and the deck clock at
an expiry its reading (LOG 5). -/
def Obligations.PackTimers : Prop :=
  ∀ (p : Fin 2) (tm : RunningTimer) (s : State),
    (s.packs[p].state = .starting → s.packs[p].startTimer = some tm → s.grantInFlight p = none →
      completes (.pumpStartLimitExpiry p) s fun t =>
        SameBut (endPieces ++ deckPieces ++ [.clock]) s t ∧
        t.packs[p].state = .failed ∧ t.packs[p].failureCause = .startLimit ∧
        t.packs[p].pumpRun = false ∧ t.packs[p].pumpDelivered = false ∧ t.packs[p].holder = none ∧
        t.packs[p].startTimer = startTimer t.clock (1000 * (s.packEntry p).startLimit) ∧
        (∀ i, (s.packEntry p).station = some i → s.isPackStation i p → imageSent i 0 true s t) ∧
        ∀ r, .ramp r ∈ s.packs[p].requests.map (·.requester) → s.ramps[r].state = .moving →
          t.ramps[r].state = .fault ∧ t.ramps[r].faultCause = .packFailed) ∧
    (∀ i, s.packs[p].state = .failed → s.packs[p].startTimer = some tm →
      (s.packEntry p).station = some i →
      completes (.recoveryDwellExpiry p) s fun t =>
        SameBut (endPieces ++ [.clock, .lineList, .stationImages, .packs, .handovers]) s t ∧
        t.packs[p].state =
          (if s.reported i = true ∧ s.packs[p].packFault = false ∧ s.packs[p].pressureReady = false then
            (if s.packs[p].requests = [] then .idle else .starting)
          else .failed) ∧
        (t.packs[p].state = .starting → s.isPackStation i p → sendsOnly i 1 false s t) ∧
        (t.packs[p].state ≠ .starting → Piece.stationImages.same s t ∧ Piece.lineList.same s t)) ∧
    (s.packs[p].parkHoldTimer = some tm →
      completes (.parkHoldExpiry p) s fun t =>
        SameBut (endPieces ++ [.clock, .lineList, .stationImages, .packs]) s t ∧
        (∀ i, (s.packEntry p).station = some i → s.isPackStation i p → sendsOnly i 0 true s t) ∧
        ∀ p', t.packs[p'] =
          if p' = p then
            { s.packs[p] with
              state := .idle, holder := none, parked := false, parkOnDeck := false, pumpRun := false
              pumpDelivered := false, parkHoldTimer := none }
          else s.packs[p']) ∧
    ∀ cause t, s.packs[p].state ≠ .failed → t = failPack p cause s →
      t.packs[p].state = .failed ∧ t.packs[p].failureCause = cause ∧ t.packs[p].holder = none ∧
      t.packs[p].parked = false ∧ t.packs[p].parkOnDeck = false ∧
      t.packs[p].preemptionDemanded = false ∧ t.packs[p].pumpRun = false ∧
      t.packs[p].pumpDelivered = false ∧ t.packs[p].parkHoldTimer = none ∧
      t.packs[p].startTimer = startTimer s.clock (1000 * (s.packEntry p).startLimit) ∧
      ((∀ q q', s.inFlight (.grant p q) = true → s.inFlight (.grant p q') = true → q = q') →
        t.grantInFlight p = none) ∧
      ∀ x ∈ s.packs[p].requests, s.inFlight (.withdrawal p x.requester) = false →
        s.inFlight (.grant p x.requester) = false →
        (x.requester = .doorUnit → s.relation p = .requesting) →
        (∀ r, x.requester = .ramp r → s.ramps[r].state = .moving → s.ramps[r].awaitingGrant = true) →
        x.requester ∈ t.packs[p].requests.map (·.requester)

/-- A request leaves its requester on the list or holding the pack, and choosing prefers the first SEAL entry
(R44, R46, R47). -/
def Obligations.RequestsAreListedOrGranted : Prop :=
  (∀ (p : Fin 2) (q : Requester) (c : RequestClass) (s : State),
    ((requestPack p q c s).packs[p].entry? q).isSome = true ∨
      (requestPack p q c s).packs[p].holder = some q) ∧
  (∀ (l : List PackRequest) (e : PackRequest), e ∈ l → e.cls = .seal →
    ∃ x ∈ l, x.cls = .seal ∧ designate l = some x.requester) ∧
  (∀ l : List PackRequest, (∀ e ∈ l, e.cls = .motion) →
    designate l = l.head?.map (·.requester)) ∧
  ∀ (p : Fin 2) (s : State), s.packs[p].state = .ready → s.packs[p].holder = none →
    s.packs[p].requests ≠ [] → (choose p s).packs[p].holder = designate s.packs[p].requests

/-- The notices of the arbiter and of a zone at the ramp unit, a grant at the door unit, which starts the
first queued door that may start, and a withdrawal at the arbiter, each while its hand-over is in flight (R45,
R67, R77, R78, R109 to R111). Of two HOST or WATCH doors of one age the lower number is first in the queue, the
model's choice (LOG 51). That they are in flight between commands is the model's reading (LOG 7, LOG 8). -/
def Obligations.NoticesAreTaken : Prop :=
  (∀ (p : Fin 2) (r : Fin 4) (e : RampEntry) (st : StageRecord) (s : State),
    s.inFlight (.grant p (.ramp r)) = true → s.rampEntry r = some e → s.ramps[r].state = .moving →
    s.ramps[r].awaitingGrant = true → e.stage? s.ramps[r].programStage = some st →
    st.metAtEntry s.ramps[r] = false →
    completes (.grantNotice p (.ramp r)) s fun t =>
      SameBut (endPieces ++ [.lineList, .stationImages, .ramps, .handovers]) s t ∧
      (s.isRampStation e.station r → sendsOnly e.station (st.valves.setWidth 32) false s t) ∧
      ∀ r', t.ramps[r'] =
        if r' = r then s.ramps[r].inStage e s.ramps[r].programStage st s.clock else s.ramps[r']) ∧
  (∀ (p : Fin 2) (r : Fin 4) (s : State), s.inFlight (.grant p (.ramp r)) = true →
    s.ramps[r].state ≠ .moving →
    completes (.grantNotice p (.ramp r)) s fun t =>
      SameBut (endPieces ++ [.lineList, .stationImages, .packs, .handovers]) s t) ∧
  (∀ (p : Fin 2) (r : Fin 4) (e : RampEntry) (s : State),
    s.inFlight (.preemption p r) = true → s.grantInFlight p = none → s.rampEntry r = some e →
    s.ramps[r].state = .moving → s.ramps[r].stage ≠ 0 →
    completes (.preemptionDemand p r) s fun t =>
      SameBut (endPieces ++ holdPieces) s t ∧
      ∀ r', t.ramps[r'] =
        if r' = r then { s.ramps[r].stopped .held .held with holdCause := .preemption }
        else s.ramps[r']) ∧
  (∀ (z : Fin 8) (s : State), s.inFlight (.zoneHold z) = true →
    completes (.zoneHold z) s fun t =>
      SameBut (endPieces ++ holdPieces) s t ∧
      ∀ r, t.ramps[r] =
        match s.rampEntry r with
        | some e =>
          if e.zone = z ∧ s.ramps[r].state = .moving then
            { s.ramps[r].stopped .held .held with holdCause := .zone }
          else s.ramps[r]
        | none => s.ramps[r]) ∧
  (∀ (p : Fin 2) (q : Requester) (s : State), s.inFlight (.withdrawal p q) = true →
    completes (.packWithdrawal p q) s fun t =>
      SameBut (endPieces ++ [.lineList, .stationImages, .packs, .handovers]) s t ∧
      t.packs[p].entry? q = none ∧ ∀ p', p' ≠ p → t.packs[p'] = s.packs[p']) ∧
  ∀ (p : Fin 2) (d : Fin 32) (s : State), s.inFlight (.grant p .doorUnit) = true →
    s.relation p = .requesting → s.nextToStart p = some d →
    s.doorsMoving p < (s.packEntry p).capacity →
    completes (.grantNotice p .doorUnit) s fun t =>
      SameBut (endPieces ++ deckPieces) s t ∧ t.relation p = .holding ∧
      t.doors[d].demand = s.doors[d].demand ∧
      t.doors[d].state = if s.doors[d].demand = .close then .closing else .opening

/-! ### Doors -/

/-- The timers of a door, and its start: the warning, the motion limit, the retry, the pack wait (R106 to
R108, R112, R113, R115). The start of a spring door lets its magnet go, and the image of its station is sent
URGENT (R36, R37, R104); the premises on outputs and images are the invariants of OutputsFollowTheDoors. The
deck clock at an expiry and the flight of a start are the model's reading (LOG 5, LOG 7). -/
def Obligations.DoorTimersAndStart : Prop :=
  ∀ (d : Fin 32) (e : DoorEntry) (tm : RunningTimer) (s : State), s.doorEntry d = some e →
    (s.doors[d].warningTimer = some tm → s.doors[d].state = .warning →
      completes (.warningTimerExpiry d) s fun t =>
        SameBut (endPieces ++ deckPieces ++ [.clock]) s t ∧
        t.doors[d].demand = s.doors[d].demand ∧ t.doors[d].warningTimer = none ∧
        (s.doors[d].origin = .zone → t.doors[d].state = .warning ∧ t.doors[d].warned = true) ∧
        (s.doors[d].origin ≠ .zone → e.kind.isHydraulic = false → t.doors[d].state = .closing ∧
          t.doors[d].motionTimer = startTimer t.clock (1000 * e.closeLimit)) ∧
        (s.doors[d].origin ≠ .zone → e.kind.isHydraulic = true → s.doors[d].demand = .close →
          t.doors[d].state = .waiting ∨ t.doors[d].state = .closing)) ∧
    (s.inFlight (.doorStart d) = true → s.doors[d].state = .warning → s.doors[d].warned = true →
      completes (.doorStart d) s fun t =>
        SameBut (endPieces ++ deckPieces) s t ∧ t.doors[d].demand = s.doors[d].demand ∧
        (e.kind.isHydraulic = false → t.doors[d].state = .closing ∧
          t.doors[d].motionTimer = startTimer s.clock (1000 * e.closeLimit)) ∧
        (e.kind.isHydraulic = false → s.outputsFollow → s.imagesFollow →
          (∀ d' e', s.doorEntry d' = some e' → e'.station = e.station → e'.point = e.point → d' = d) →
          s.stationKind e.station = .door → s.sendsTo e.station →
          ∃ x, t.line.entry? e.station = some x ∧ x.image = t.stations[e.station].image ∧
            x.urgent = true ∧ x.image.getLsbD (4 * e.point.val + 3) = false) ∧
        (e.kind.isHydraulic = true → s.doors[d].demand = .close →
          t.doors[d].state = .waiting ∨ t.doors[d].state = .closing)) ∧
    (s.doors[d].motionTimer = some tm → s.doors[d].state = .closing ∨ s.doors[d].state = .opening →
      completes (.motionTimerExpiry d) s fun t =>
        SameBut (endPieces ++ deckPieces ++ [.clock]) s t ∧
        t.doors[d].lastOutcome = some .timedOut ∧ t.doors[d].motionTimer = none ∧
        t.doors[d].state =
          (if s.doors[d].state = .closing then .failed else s.doors[d].switchState) ∧
        (s.doors[d].origin ≠ .zone ∨ s.doors[d].finishing = true → t.doors[d].demand = .none) ∧
        ∀ c, s.doors[d].origin ≠ .zone → s.doors[d].card = some c → t.settled c) ∧
    (s.doors[d].retryTimer = some tm → s.doors[d].state = .obstructed →
      completes (.retryTimerExpiry d) s fun t =>
        SameBut (endPieces ++ deckPieces ++ [.clock]) s t ∧ t.doors[d].retryTimer = none ∧
        (s.doors[d].beam = true → t.doors[d].state = .obstructed) ∧
        (s.doors[d].beam = false → e.retryLimit < s.doors[d].retriesUsed + 1 →
          t.doors[d].state = .failed ∧ t.doors[d].lastOutcome = some .obstructed) ∧
        (s.doors[d].beam = false → s.doors[d].retriesUsed + 1 ≤ e.retryLimit →
          t.doors[d].retriesUsed = s.doors[d].retriesUsed + 1 ∧
          (s.doors[d].demand = .close →
            t.doors[d].state = .waiting ∨ t.doors[d].state = .closing))) ∧
    ∀ p, s.doors[d].packWaitTimer = some tm → e.kind.pack? = some p →
      completes (.packWaitTimerExpiry d) s fun t =>
        SameBut (endPieces ++ deckPieces ++ [.clock]) s t ∧ t.doors[d].state = .failed ∧
        t.doors[d].lastOutcome = some .packFailed

/-! ### Zones and calls -/

/-- The timers of a zone and the placing of its demands: an alert that stands seals, the next start is given,
and every door of the zone stands under the zone's demand (R118, R131, R132, R136). While the part is not
RUNNING the zone unit takes no report of that placement (R127), and takes the requests for a start (LOG 20).
That an alert timer running outside RUNNING expires, and may seal its zone, is the model's choice (LOG 43). The
deck clock at an expiry and the flight of hand-overs are the model's reading (LOG 5, LOG 7). -/
def Obligations.ZoneTimersAndDemands : Prop :=
  ∀ (z : Fin 8) (tm : RunningTimer) (s : State),
    (s.zones[z].alertTimer = some tm →
      completes (.alertTimerExpiry z) s fun t =>
        SameBut (endPieces ++ [.clock, .zones, .handovers]) s t ∧
        (s.zones[z].state = .alert ∧ (s.zoneEntry z).autoSeal = true ∧ s.zones[z].alarm = true →
          t.inFlight (.zoneHold z) = true ∧ t.inFlight (.zoneDemand z) = true ∧
          t.inFlight (.sealingNotice z) = true) ∧
        ∀ z', t.zones[z'] =
          if z' = z then
            if s.zones[z].state = .alert ∧ (s.zoneEntry z).autoSeal = true ∧
                s.zones[z].alarm = true then
              { s.zones[z] with
                state := .sealing, sealCause := .auto, card := none, alertTimer := none,
                startRequests := [], staggerTimer := none, placementPending := true }
            else { s.zones[z] with alertTimer := none }
          else s.zones[z']) ∧
    (s.zones[z].staggerTimer = some tm →
      completes (.staggerTimerExpiry z) s fun t =>
        SameBut (endPieces ++ [.clock, .zones, .handovers]) s t ∧
        (∀ d, d ∈ s.zones[z].startRequests → (s.zoneEntry z).stagger = 0 →
          s.zones[z].startRequests.length ≤ 32 → t.inFlight (.doorStart d) = true) ∧
        (∀ d rest, s.zones[z].startRequests = d :: rest → (s.zoneEntry z).stagger ≠ 0 →
          t.inFlight (.doorStart d) = true ∧ t.zones[z] =
            { s.zones[z] with
              startRequests := rest
              staggerTimer := startTimer t.clock (1000 * (s.zoneEntry z).stagger) }) ∧
        (s.zones[z].startRequests = [] → t.zones[z] = { s.zones[z] with staggerTimer := none })) ∧
    (s.inFlight (.zoneDemand z) = true →
      completes (.zoneDemand z) s fun t =>
        SameBut (endPieces ++ deckPieces) s t ∧
        (∀ d ∈ s.doorsOfZone z, t.doors[d].zoneClose = true) ∧
        (s.part = .running → t.zones[z].placementPending = false ∧
          t.zones[z].doorStates = t.freshDoorStates z) ∧
        (s.part ≠ .running → t.zones[z] = { s.zones[z] with
          startRequests := t.zones[z].startRequests, staggerTimer := t.zones[z].staggerTimer }))

/-- The sealing notice and the timers of calls (R132, R150, R152, R154 to R157). At the notice the call unit's
copy changes and BOARDING and ROUTINE calls are cut in the zone: its channel is free with STOP, and the call
goes on without the zone, or ends CUT with its repeats done when no zone is left. With a clip the zone's
sealing call takes the lowest FREE slot: it plays at once on a free channel with a call station, and waits
behind an EMERGENCY call. A channel whose play limit runs out falls silent; a gap that runs out begins the
next repeat. The premises leave out calls that wait in the queue. The deck clock at an expiry and the flight
of a notice are the model's reading (LOG 5, LOG 7). -/
def Obligations.SealingNoticeAndCallTimers : Prop :=
  (∀ (z : Fin 8) (s : State), s.inFlight (.sealingNotice z) = true →
    completes (.zoneSealingNotice z) s fun t =>
      SameBut (endPieces ++ callPieces ++ [.callUnit, .handovers]) s t ∧
      (∀ z', t.callUnit.zoneCopy[z'] = if z' = z then .sealing else s.callUnit.zoneCopy[z']) ∧
      ((s.zoneEntry z).clip = 0 → t.callUnit.nextArrival = s.callUnit.nextArrival) ∧
      ((s.zoneEntry z).clip = 0 → (∀ i : Fin 16, s.slots[i].state ≠ .queued) →
        (∀ j, s.channels[z].holder = some j →
          s.slots[j].priority = .safety ∨ s.slots[j].priority = .emergency) →
        t.slots = s.slots ∧ t.channels = s.channels) ∧
      ((s.zoneEntry z).clip ≠ 0 → (∀ i : Fin 16, s.slots[i].state ≠ .queued) →
        (∃ i : Fin 16, s.slots[i].state = .free) →
        t.callUnit.nextArrival = s.callUnit.nextArrival + 1) ∧
      ∀ (i : Fin 16) (call : SlotRecord), (s.zoneEntry z).clip ≠ 0 →
        (∀ j : Fin 16, s.slots[j].state ≠ .queued) → s.firstFree i →
        call =
          { SlotRecord.start with
            state := .queued, origin := .zone z, card := none
            clip := BitVec.ofNat 8 (s.zoneEntry z).clip, zones := BitVec.twoPow 8 z.val
            priority := .emergency, repeats := (s.zoneEntry z).repeats, gap := 0, chime := true
            resumeOnCut := false, arrival := s.callUnit.nextArrival } →
        (s.channels[z].holder = none → s.canPlay z →
          (∀ j, t.slots[j] = if j = i then { call with state := .playing } else s.slots[j]) ∧
          ∀ y, t.channels[y] = if y = z then s.channels[z].plays i call s.clock else s.channels[y]) ∧
        (∀ j, s.channels[z].holder = some j → s.slots[j].priority = .emergency →
          (∀ j', t.slots[j'] = if j' = i then call else s.slots[j']) ∧ t.channels = s.channels)) ∧
  (∀ (z : Fin 8) (j : Fin 16) (rest : SlotRecord) (s : State), s.inFlight (.sealingNotice z) = true →
    (s.zoneEntry z).clip = 0 → (∀ i : Fin 16, s.slots[i].state ≠ .queued) →
    s.channels[z].holder = some j →
    s.slots[j].priority = .boarding ∨ s.slots[j].priority = .routine →
    s.slots[j].state = .playing ∨ s.slots[j].state = .gap →
    rest =
      { s.slots[j] with
        zones := s.slots[j].zones &&& ~~~ BitVec.twoPow 8 z.val
        silent := s.slots[j].silent &&& ~~~ BitVec.twoPow 8 z.val } →
    completes (.zoneSealingNotice z) s fun t =>
      t.channels[z] = s.channels[z].stopped ∧
      (rest.zones = 0 → t.slots[j] = SlotRecord.start ∧
        ∀ d, s.memoryOk = true → s.slots[j].card = some d → t.endedWith d .cut s.slots[j].repeatsDone) ∧
      (rest.zones ≠ 0 → ∀ j', j' ≠ j → t.slots[j'] = s.slots[j']) ∧
      (rest.zones ≠ 0 →
        s.slots[j].state = .gap ∨ (∃ y, hasZone rest.zones y = true ∧ s.channels[y].progress ≠ .done ∧
          s.channels[y].progress ≠ .silent) →
        t.slots[j] = rest ∧ ∀ y, y ≠ z → t.channels[y] = s.channels[y]) ∧
      (rest.zones ≠ 0 → s.slots[j].state = .playing → rest.gap ≠ 0 →
        rest.repeatsDone + 1 < rest.repeats →
        (∀ y, hasZone rest.zones y = true →
          s.channels[y].progress = .done ∨ s.channels[y].progress = .silent) →
        t.slots[j] =
          { rest with
            state := .gap, repeatsDone := rest.repeatsDone + 1
            gapTimer := startTimer s.clock (1000 * rest.gap) } ∧
        ∀ y, y ≠ z → t.channels[y] = s.channels[y])) ∧
  (∀ (z z' : Fin 8) (i : Fin 16) (tm : RunningTimer) (s : State),
    s.channels[z].playTimer = some tm → s.channels[z].holder = some i → s.slots[i].state = .playing →
    s.channels[z].progress = .sent ∨ s.channels[z].progress = .playing → z' ≠ z →
    hasZone s.slots[i].zones z' = true → s.channels[z'].progress ≠ .done →
    s.channels[z'].progress ≠ .silent → (∀ j : Fin 16, s.slots[j].state ≠ .queued) →
    completes (.playLimitTimerExpiry z) s fun t =>
      SameBut (endPieces ++ callPieces ++ [.clock]) s t ∧
      (∀ j, t.slots[j] =
        if j = i then
          { s.slots[i] with
            silent := s.slots[i].silent ||| BitVec.twoPow 8 z.val
            silentCount := s.slots[i].silentCount + 1 }
        else s.slots[j]) ∧
      ∀ y, t.channels[y] =
        if y = z then
          { s.channels[z] with progress := .silent, playTimer := none, contribution := .stop }
        else s.channels[y]) ∧
  ∀ (i : Fin 16) (tm : RunningTimer) (s : State),
    s.slots[i].gapTimer = some tm → s.slots[i].state = .gap → s.slots[i].zones ≠ 0 →
    (∀ j : Fin 16, s.slots[j].state ≠ .queued) →
    (∀ z, hasZone s.slots[i].zones z = true → hasZone s.slots[i].silent z = false ∧ s.canPlay z) →
    completes (.gapTimerExpiry i) s fun t =>
      SameBut (endPieces ++ callPieces ++ [.clock]) s t ∧
      (∀ j, t.slots[j] =
        if j = i then { s.slots[i] with state := .playing, gapTimer := none } else s.slots[j]) ∧
      ∀ z, t.channels[z] =
        if hasZone s.slots[i].zones z = true then
          { s.channels[z].plays i s.slots[i] t.clock with holder := s.channels[z].holder }
        else s.channels[z]
end

