-- ==== Sys2Proof/Laws/Memory.lean ====
section
/-! SUPPORT. The laws of exchange memory: reading after writing, and the canonical form kept by a write. -/

namespace Sys2Proof.Machine

-- One theorem at a time: many at once take much memory.
set_option Elab.async false

/-- A write leaves every other word alone. -/
theorem Memory.read_write_ne (m : Memory) {x y : Nat} (v : Word) (h : y ≠ x) :
    (m.write x v).read y = m.read y := by
  induction m with
  | nil => simp only [Memory.write]; split <;> simp [Memory.read, h]
  | cons e rest ih =>
    obtain ⟨a, w⟩ := e
    simp only [Memory.write]
    split
    · split <;> simp [Memory.read, h]
    · split
      · rename_i hx
        subst hx
        split <;> simp [Memory.read, h]
      · simp [Memory.read, ih]

/-- In canonical form, no word is listed below the least address. -/
theorem Memory.read_below {m : Memory} {low x : Nat} (h : m.wfFrom low = true) (hx : x < low) :
    m.read x = 0 := by
  induction m generalizing low with
  | nil => rfl
  | cons e rest ih =>
    obtain ⟨a, w⟩ := e
    simp only [Memory.wfFrom, Bool.and_eq_true, decide_eq_true_eq] at h
    have hne : x ≠ a := by omega
    simp [Memory.read, hne, ih h.2 (by omega)]

/-- A write is read back. -/
theorem Memory.read_write_self {m : Memory} {low x : Nat} (v : Word) (h : m.wfFrom low = true) :
    (m.write x v).read x = v := by
  induction m generalizing low with
  | nil => simp only [Memory.write]; split <;> simp_all [Memory.read]
  | cons e rest ih =>
    obtain ⟨a, w⟩ := e
    simp only [Memory.wfFrom, Bool.and_eq_true, decide_eq_true_eq] at h
    simp only [Memory.write]
    split
    · split
      · have hne : x ≠ a := by omega
        simp_all [Memory.read, Memory.read_below h.2 (show x < a + 1 by omega)]
      · simp [Memory.read]
    · split
      · rename_i hx
        subst hx
        split
        · simp_all [Memory.read_below h.2 (show x < x + 1 by omega)]
        · simp [Memory.read]
      · rename_i hx
        simp [Memory.read, hx, ih h.2]

theorem Memory.wfFrom_write {m : Memory} {low x : Nat} (v : Word) (hl : low ≤ x)
    (hx : x < Config.memoryWords) (h : m.wfFrom low = true) : (m.write x v).wfFrom low = true := by
  induction m generalizing low with
  | nil =>
    simp only [Memory.write]
    split <;> simp_all [Memory.wfFrom]
  | cons e rest ih =>
    obtain ⟨a, w⟩ := e
    have h' := h
    simp only [Memory.wfFrom, Bool.and_eq_true, decide_eq_true_eq] at h
    obtain ⟨⟨⟨ha, hb⟩, hw⟩, hr⟩ := h
    have lower : ∀ {m : Memory} {p q : Nat}, q ≤ p → m.wfFrom p = true → m.wfFrom q = true := by
      intro m p q hq hm
      cases m with
      | nil => rfl
      | cons e r =>
        simp only [Memory.wfFrom, Bool.and_eq_true, decide_eq_true_eq] at hm ⊢
        exact ⟨⟨⟨by omega, hm.1.1.2⟩, hm.1.2⟩, hm.2⟩
    simp only [Memory.write]
    split
    · split
      · exact h'
      · simp only [Memory.wfFrom, Bool.and_eq_true, decide_eq_true_eq]
        exact ⟨⟨⟨hl, hx⟩, by assumption⟩, ⟨⟨⟨by omega, hb⟩, hw⟩, hr⟩⟩
    · split
      · rename_i hxa
        subst hxa
        split
        · exact lower (by omega) hr
        · simp only [Memory.wfFrom, Bool.and_eq_true, decide_eq_true_eq]
          exact ⟨⟨⟨hl, hx⟩, by assumption⟩, hr⟩
      · simp only [Memory.wfFrom, Bool.and_eq_true, decide_eq_true_eq]
        exact ⟨⟨⟨ha, hb⟩, hw⟩, ih (by omega) hr⟩

/-- A write inside exchange memory keeps the canonical form. -/
theorem Memory.wf_write {m : Memory} {x : Nat} (v : Word) (hx : x < Config.memoryWords)
    (h : m.wf = true) : (m.write x v).wf = true :=
  Memory.wfFrom_write v (Nat.zero_le x) hx h

/-- In canonical form a write is read back, and no other word changes. -/
theorem Memory.read_write {m : Memory} {x : Nat} (v : Word) (h : m.wf = true) (y : Nat) :
    (m.write x v).read y = if y = x then v else m.read y := by
  split
  · rename_i hy
    subst hy
    exact Memory.read_write_self v h
  · exact Memory.read_write_ne m v ‹_›

/-- A write lists no address but the old ones and its own. -/
theorem Memory.all_write {m : Memory} {x : Nat} (v : Word) (p : Nat → Bool) (hp : p x = true)
    (h : (m.all fun e => p e.1) = true) : ((m.write x v).all fun e => p e.1) = true := by
  induction m with
  | nil => simp only [Memory.write]; split <;> simp [hp]
  | cons e rest ih =>
    obtain ⟨a, w⟩ := e
    have h' := h
    rw [List.all_cons, Bool.and_eq_true] at h
    have cons : ∀ (y : Nat × Word) (l : Memory), p y.1 = true → (l.all fun e => p e.1) = true →
        ((y :: l).all fun e => p e.1) = true := by
      intro y l hy hl
      rw [List.all_cons, hy, hl]
      rfl
    simp only [Memory.write]
    split
    · split
      · exact h'
      · exact cons _ _ hp h'
    · split
      · split
        · exact h.2
        · exact cons _ _ hp h.2
      · exact cons _ _ h.1 (ih h.2)

/-- A write to a word that is no view keeps stored memory in order. -/
theorem State.memoryOk_writeWord {s : State} {a : Nat} (v : Word) (ha : a < Config.memoryWords)
    (hv : isView a = false) (h : s.memoryOk = true) : (writeWord a v s).memoryOk = true := by
  simp only [State.memoryOk, Bool.and_eq_true] at h ⊢
  exact ⟨Memory.wf_write v ha h.1, Memory.all_write v (fun x => !isView x) (by simp [hv]) h.2⟩

/-- The place of a card word in the card area. -/
theorem cardAt_cardAddress (c : CardId) {k : Nat} (hk : k < 16) : cardAt (cardAddress c k) = some (c, k) := by
  have hq : (cardAddress c k - Config.cardBase) / 16 = c.val := by
    simp only [cardAddress]; omega
  have hr : (cardAddress c k - Config.cardBase) % 16 = k := by
    simp only [cardAddress]; omega
  have hb : Config.cardBase ≤ cardAddress c k := by
    simp only [cardAddress]; omega
  have h40 : (cardAddress c k - Config.cardBase) / 16 < 40 := by
    rw [hq]; exact c.isLt
  simp only [cardAt, hb, if_true, h40, dif_pos, Option.some.injEq, Prod.mk.injEq, hr, and_true]
  exact Fin.ext hq

/-- A word of a card's body is stored, and lies in exchange memory. -/
theorem isView_cardAddress (c : CardId) {k : Nat} (h0 : 0 < k) (hk : k < 16) :
    isView (cardAddress c k) = false ∧ cardAddress c k < Config.memoryWords := by
  have hc := c.isLt
  constructor
  · obtain ⟨j, rfl⟩ : ∃ j, k = j + 1 := ⟨k - 1, by omega⟩
    have h1 : decide (cardAddress c (j + 1) < Config.cardBase) = false := by
      apply decide_eq_false
      simp only [cardAddress]; omega
    have h2 : decide (Config.imageBase ≤ cardAddress c (j + 1)) = false := by
      apply decide_eq_false
      simp only [cardAddress, Config.cardBase, Config.imageBase]; omega
    simp [isView, cardAt_cardAddress c hk, h1, h2]
  · simp only [cardAddress, Config.cardBase, Config.memoryWords]
    omega

/-- Card words are told apart by their card and their place. -/
theorem cardAddress_inj {c d : CardId} {j k : Nat} (hj : j < 16) (hk : k < 16)
    (h : cardAddress c j = cardAddress d k) : c = d ∧ j = k := by
  simp only [cardAddress] at h
  constructor
  · apply Fin.ext; omega
  · omega

theorem State.reset_memoryOk : State.reset.memoryOk = true := by decide

end Sys2Proof.Machine
end

