-- ==== Sys2Proof/Laws/State.lean ====
section
/-! SUPPORT. Each field of the state after each update: one lemma for each, true by unfolding, so that no
proof unfolds an update of the state record. -/

namespace Sys2Proof.Machine

-- One theorem at a time: many at once take much memory.
set_option Elab.async false

variable (s : State)

@[simp] theorem raiseFlag_pending (f : Flag) : (raiseFlag f s).pending = s.pending := rfl
@[simp] theorem raiseFlag_clock (f : Flag) : (raiseFlag f s).clock = s.clock := rfl
@[simp] theorem raiseFlag_pins (f : Flag) : (raiseFlag f s).pins = s.pins := rfl
@[simp] theorem raiseFlag_part (f : Flag) : (raiseFlag f s).part = s.part := rfl
@[simp] theorem raiseFlag_enables (f : Flag) : (raiseFlag f s).enables = s.enables := rfl
@[simp] theorem raiseFlag_attention (f : Flag) : (raiseFlag f s).attention = s.attention ||| f.mask := rfl
@[simp] theorem raiseFlag_misuse (f : Flag) : (raiseFlag f s).misuse = s.misuse := rfl
@[simp] theorem raiseFlag_cards (f : Flag) : (raiseFlag f s).cards = s.cards := rfl
@[simp] theorem raiseFlag_mem (f : Flag) : (raiseFlag f s).mem = s.mem := rfl
@[simp] theorem raiseFlag_tables (f : Flag) : (raiseFlag f s).tables = s.tables := rfl
@[simp] theorem raiseFlag_line (f : Flag) : (raiseFlag f s).line = s.line := rfl
@[simp] theorem raiseFlag_stations (f : Flag) : (raiseFlag f s).stations = s.stations := rfl
@[simp] theorem raiseFlag_packs (f : Flag) : (raiseFlag f s).packs = s.packs := rfl
@[simp] theorem raiseFlag_ramps (f : Flag) : (raiseFlag f s).ramps = s.ramps := rfl
@[simp] theorem raiseFlag_doors (f : Flag) : (raiseFlag f s).doors = s.doors := rfl
@[simp] theorem raiseFlag_doorUnit (f : Flag) : (raiseFlag f s).doorUnit = s.doorUnit := rfl
@[simp] theorem raiseFlag_zones (f : Flag) : (raiseFlag f s).zones = s.zones := rfl
@[simp] theorem raiseFlag_slots (f : Flag) : (raiseFlag f s).slots = s.slots := rfl
@[simp] theorem raiseFlag_channels (f : Flag) : (raiseFlag f s).channels = s.channels := rfl
@[simp] theorem raiseFlag_callUnit (f : Flag) : (raiseFlag f s).callUnit = s.callUnit := rfl
@[simp] theorem raiseFlag_watch (f : Flag) : (raiseFlag f s).watch = s.watch := rfl
@[simp] theorem raiseFlag_counts (f : Flag) : (raiseFlag f s).counts = s.counts := rfl
@[simp] theorem raiseFlag_handovers (f : Flag) : (raiseFlag f s).handovers = s.handovers := rfl
@[simp] theorem raiseFlag_changed (f : Flag) : (raiseFlag f s).changed = s.changed := rfl

@[simp] theorem clearFlags_pending (v : Word) : (clearFlags v s).pending = s.pending := rfl
@[simp] theorem clearFlags_clock (v : Word) : (clearFlags v s).clock = s.clock := rfl
@[simp] theorem clearFlags_pins (v : Word) : (clearFlags v s).pins = s.pins := rfl
@[simp] theorem clearFlags_part (v : Word) : (clearFlags v s).part = s.part := rfl
@[simp] theorem clearFlags_enables (v : Word) : (clearFlags v s).enables = s.enables := rfl
@[simp] theorem clearFlags_attention (v : Word) : (clearFlags v s).attention = s.attention &&& v.setWidth 10 := rfl
@[simp] theorem clearFlags_misuse (v : Word) : (clearFlags v s).misuse = s.misuse := rfl
@[simp] theorem clearFlags_cards (v : Word) : (clearFlags v s).cards = s.cards := rfl
@[simp] theorem clearFlags_mem (v : Word) : (clearFlags v s).mem = s.mem := rfl
@[simp] theorem clearFlags_tables (v : Word) : (clearFlags v s).tables = s.tables := rfl
@[simp] theorem clearFlags_line (v : Word) : (clearFlags v s).line = s.line := rfl
@[simp] theorem clearFlags_stations (v : Word) : (clearFlags v s).stations = s.stations := rfl
@[simp] theorem clearFlags_packs (v : Word) : (clearFlags v s).packs = s.packs := rfl
@[simp] theorem clearFlags_ramps (v : Word) : (clearFlags v s).ramps = s.ramps := rfl
@[simp] theorem clearFlags_doors (v : Word) : (clearFlags v s).doors = s.doors := rfl
@[simp] theorem clearFlags_doorUnit (v : Word) : (clearFlags v s).doorUnit = s.doorUnit := rfl
@[simp] theorem clearFlags_zones (v : Word) : (clearFlags v s).zones = s.zones := rfl
@[simp] theorem clearFlags_slots (v : Word) : (clearFlags v s).slots = s.slots := rfl
@[simp] theorem clearFlags_channels (v : Word) : (clearFlags v s).channels = s.channels := rfl
@[simp] theorem clearFlags_callUnit (v : Word) : (clearFlags v s).callUnit = s.callUnit := rfl
@[simp] theorem clearFlags_watch (v : Word) : (clearFlags v s).watch = s.watch := rfl
@[simp] theorem clearFlags_counts (v : Word) : (clearFlags v s).counts = s.counts := rfl
@[simp] theorem clearFlags_handovers (v : Word) : (clearFlags v s).handovers = s.handovers := rfl
@[simp] theorem clearFlags_changed (v : Word) : (clearFlags v s).changed = s.changed := rfl

@[simp] theorem setEnables_pending (b : BitVec 10) : (setEnables b s).pending = s.pending := rfl
@[simp] theorem setEnables_clock (b : BitVec 10) : (setEnables b s).clock = s.clock := rfl
@[simp] theorem setEnables_pins (b : BitVec 10) : (setEnables b s).pins = s.pins := rfl
@[simp] theorem setEnables_part (b : BitVec 10) : (setEnables b s).part = s.part := rfl
@[simp] theorem setEnables_enables (b : BitVec 10) : (setEnables b s).enables = b := rfl
@[simp] theorem setEnables_attention (b : BitVec 10) : (setEnables b s).attention = s.attention := rfl
@[simp] theorem setEnables_misuse (b : BitVec 10) : (setEnables b s).misuse = s.misuse := rfl
@[simp] theorem setEnables_cards (b : BitVec 10) : (setEnables b s).cards = s.cards := rfl
@[simp] theorem setEnables_mem (b : BitVec 10) : (setEnables b s).mem = s.mem := rfl
@[simp] theorem setEnables_tables (b : BitVec 10) : (setEnables b s).tables = s.tables := rfl
@[simp] theorem setEnables_line (b : BitVec 10) : (setEnables b s).line = s.line := rfl
@[simp] theorem setEnables_stations (b : BitVec 10) : (setEnables b s).stations = s.stations := rfl
@[simp] theorem setEnables_packs (b : BitVec 10) : (setEnables b s).packs = s.packs := rfl
@[simp] theorem setEnables_ramps (b : BitVec 10) : (setEnables b s).ramps = s.ramps := rfl
@[simp] theorem setEnables_doors (b : BitVec 10) : (setEnables b s).doors = s.doors := rfl
@[simp] theorem setEnables_doorUnit (b : BitVec 10) : (setEnables b s).doorUnit = s.doorUnit := rfl
@[simp] theorem setEnables_zones (b : BitVec 10) : (setEnables b s).zones = s.zones := rfl
@[simp] theorem setEnables_slots (b : BitVec 10) : (setEnables b s).slots = s.slots := rfl
@[simp] theorem setEnables_channels (b : BitVec 10) : (setEnables b s).channels = s.channels := rfl
@[simp] theorem setEnables_callUnit (b : BitVec 10) : (setEnables b s).callUnit = s.callUnit := rfl
@[simp] theorem setEnables_watch (b : BitVec 10) : (setEnables b s).watch = s.watch := rfl
@[simp] theorem setEnables_counts (b : BitVec 10) : (setEnables b s).counts = s.counts := rfl
@[simp] theorem setEnables_handovers (b : BitVec 10) : (setEnables b s).handovers = s.handovers := rfl
@[simp] theorem setEnables_changed (b : BitVec 10) : (setEnables b s).changed = s.changed := rfl

@[simp] theorem writeWord_pending (a : Nat) (v : Word) : (writeWord a v s).pending = s.pending := rfl
@[simp] theorem writeWord_clock (a : Nat) (v : Word) : (writeWord a v s).clock = s.clock := rfl
@[simp] theorem writeWord_pins (a : Nat) (v : Word) : (writeWord a v s).pins = s.pins := rfl
@[simp] theorem writeWord_part (a : Nat) (v : Word) : (writeWord a v s).part = s.part := rfl
@[simp] theorem writeWord_enables (a : Nat) (v : Word) : (writeWord a v s).enables = s.enables := rfl
@[simp] theorem writeWord_attention (a : Nat) (v : Word) : (writeWord a v s).attention = s.attention := rfl
@[simp] theorem writeWord_misuse (a : Nat) (v : Word) : (writeWord a v s).misuse = s.misuse := rfl
@[simp] theorem writeWord_cards (a : Nat) (v : Word) : (writeWord a v s).cards = s.cards := rfl
@[simp] theorem writeWord_mem (a : Nat) (v : Word) : (writeWord a v s).mem = s.mem.write a v := rfl
@[simp] theorem writeWord_tables (a : Nat) (v : Word) : (writeWord a v s).tables = s.tables := rfl
@[simp] theorem writeWord_line (a : Nat) (v : Word) : (writeWord a v s).line = s.line := rfl
@[simp] theorem writeWord_stations (a : Nat) (v : Word) : (writeWord a v s).stations = s.stations := rfl
@[simp] theorem writeWord_packs (a : Nat) (v : Word) : (writeWord a v s).packs = s.packs := rfl
@[simp] theorem writeWord_ramps (a : Nat) (v : Word) : (writeWord a v s).ramps = s.ramps := rfl
@[simp] theorem writeWord_doors (a : Nat) (v : Word) : (writeWord a v s).doors = s.doors := rfl
@[simp] theorem writeWord_doorUnit (a : Nat) (v : Word) : (writeWord a v s).doorUnit = s.doorUnit := rfl
@[simp] theorem writeWord_zones (a : Nat) (v : Word) : (writeWord a v s).zones = s.zones := rfl
@[simp] theorem writeWord_slots (a : Nat) (v : Word) : (writeWord a v s).slots = s.slots := rfl
@[simp] theorem writeWord_channels (a : Nat) (v : Word) : (writeWord a v s).channels = s.channels := rfl
@[simp] theorem writeWord_callUnit (a : Nat) (v : Word) : (writeWord a v s).callUnit = s.callUnit := rfl
@[simp] theorem writeWord_watch (a : Nat) (v : Word) : (writeWord a v s).watch = s.watch := rfl
@[simp] theorem writeWord_counts (a : Nat) (v : Word) : (writeWord a v s).counts = s.counts := rfl
@[simp] theorem writeWord_handovers (a : Nat) (v : Word) : (writeWord a v s).handovers = s.handovers := rfl
@[simp] theorem writeWord_changed (a : Nat) (v : Word) : (writeWord a v s).changed = s.changed := rfl

@[simp] theorem setStation_pending (i : Fin 48) (r : StationRecord) : (setStation i r s).pending = s.pending := rfl
@[simp] theorem setStation_clock (i : Fin 48) (r : StationRecord) : (setStation i r s).clock = s.clock := rfl
@[simp] theorem setStation_pins (i : Fin 48) (r : StationRecord) : (setStation i r s).pins = s.pins := rfl
@[simp] theorem setStation_part (i : Fin 48) (r : StationRecord) : (setStation i r s).part = s.part := rfl
@[simp] theorem setStation_enables (i : Fin 48) (r : StationRecord) : (setStation i r s).enables = s.enables := rfl
@[simp] theorem setStation_attention (i : Fin 48) (r : StationRecord) : (setStation i r s).attention = s.attention := rfl
@[simp] theorem setStation_misuse (i : Fin 48) (r : StationRecord) : (setStation i r s).misuse = s.misuse := rfl
@[simp] theorem setStation_cards (i : Fin 48) (r : StationRecord) : (setStation i r s).cards = s.cards := rfl
@[simp] theorem setStation_mem (i : Fin 48) (r : StationRecord) : (setStation i r s).mem = s.mem := rfl
@[simp] theorem setStation_tables (i : Fin 48) (r : StationRecord) : (setStation i r s).tables = s.tables := rfl
@[simp] theorem setStation_line (i : Fin 48) (r : StationRecord) : (setStation i r s).line = s.line := rfl
@[simp] theorem setStation_stations (i : Fin 48) (r : StationRecord) : (setStation i r s).stations = s.stations.set i r := rfl
@[simp] theorem setStation_packs (i : Fin 48) (r : StationRecord) : (setStation i r s).packs = s.packs := rfl
@[simp] theorem setStation_ramps (i : Fin 48) (r : StationRecord) : (setStation i r s).ramps = s.ramps := rfl
@[simp] theorem setStation_doors (i : Fin 48) (r : StationRecord) : (setStation i r s).doors = s.doors := rfl
@[simp] theorem setStation_doorUnit (i : Fin 48) (r : StationRecord) : (setStation i r s).doorUnit = s.doorUnit := rfl
@[simp] theorem setStation_zones (i : Fin 48) (r : StationRecord) : (setStation i r s).zones = s.zones := rfl
@[simp] theorem setStation_slots (i : Fin 48) (r : StationRecord) : (setStation i r s).slots = s.slots := rfl
@[simp] theorem setStation_channels (i : Fin 48) (r : StationRecord) : (setStation i r s).channels = s.channels := rfl
@[simp] theorem setStation_callUnit (i : Fin 48) (r : StationRecord) : (setStation i r s).callUnit = s.callUnit := rfl
@[simp] theorem setStation_watch (i : Fin 48) (r : StationRecord) : (setStation i r s).watch = s.watch := rfl
@[simp] theorem setStation_counts (i : Fin 48) (r : StationRecord) : (setStation i r s).counts = s.counts := rfl
@[simp] theorem setStation_handovers (i : Fin 48) (r : StationRecord) : (setStation i r s).handovers = s.handovers := rfl
/-- A record that then shows other fields is noted. -/
@[simp] theorem setStation_changed (i : Fin 48) (r : StationRecord) :
    (setStation i r s).changed =
      s.changed ++ ([.station i] : List RecordId).filter fun id =>
        (setStation i r s).view id != s.view id := rfl

@[simp] theorem setPack_pending (p : Fin 2) (r : PackRecord) : (setPack p r s).pending = s.pending := rfl
@[simp] theorem setPack_clock (p : Fin 2) (r : PackRecord) : (setPack p r s).clock = s.clock := rfl
@[simp] theorem setPack_pins (p : Fin 2) (r : PackRecord) : (setPack p r s).pins = s.pins := rfl
@[simp] theorem setPack_part (p : Fin 2) (r : PackRecord) : (setPack p r s).part = s.part := rfl
@[simp] theorem setPack_enables (p : Fin 2) (r : PackRecord) : (setPack p r s).enables = s.enables := rfl
@[simp] theorem setPack_attention (p : Fin 2) (r : PackRecord) : (setPack p r s).attention = s.attention := rfl
@[simp] theorem setPack_misuse (p : Fin 2) (r : PackRecord) : (setPack p r s).misuse = s.misuse := rfl
@[simp] theorem setPack_cards (p : Fin 2) (r : PackRecord) : (setPack p r s).cards = s.cards := rfl
@[simp] theorem setPack_mem (p : Fin 2) (r : PackRecord) : (setPack p r s).mem = s.mem := rfl
@[simp] theorem setPack_tables (p : Fin 2) (r : PackRecord) : (setPack p r s).tables = s.tables := rfl
@[simp] theorem setPack_line (p : Fin 2) (r : PackRecord) : (setPack p r s).line = s.line := rfl
@[simp] theorem setPack_stations (p : Fin 2) (r : PackRecord) : (setPack p r s).stations = s.stations := rfl
@[simp] theorem setPack_packs (p : Fin 2) (r : PackRecord) : (setPack p r s).packs = s.packs.set p r := rfl
@[simp] theorem setPack_ramps (p : Fin 2) (r : PackRecord) : (setPack p r s).ramps = s.ramps := rfl
@[simp] theorem setPack_doors (p : Fin 2) (r : PackRecord) : (setPack p r s).doors = s.doors := rfl
@[simp] theorem setPack_doorUnit (p : Fin 2) (r : PackRecord) : (setPack p r s).doorUnit = s.doorUnit := rfl
@[simp] theorem setPack_zones (p : Fin 2) (r : PackRecord) : (setPack p r s).zones = s.zones := rfl
@[simp] theorem setPack_slots (p : Fin 2) (r : PackRecord) : (setPack p r s).slots = s.slots := rfl
@[simp] theorem setPack_channels (p : Fin 2) (r : PackRecord) : (setPack p r s).channels = s.channels := rfl
@[simp] theorem setPack_callUnit (p : Fin 2) (r : PackRecord) : (setPack p r s).callUnit = s.callUnit := rfl
@[simp] theorem setPack_watch (p : Fin 2) (r : PackRecord) : (setPack p r s).watch = s.watch := rfl
@[simp] theorem setPack_counts (p : Fin 2) (r : PackRecord) : (setPack p r s).counts = s.counts := rfl
@[simp] theorem setPack_handovers (p : Fin 2) (r : PackRecord) : (setPack p r s).handovers = s.handovers := rfl
/-- A record that then shows other fields is noted. -/
@[simp] theorem setPack_changed (p : Fin 2) (r : PackRecord) :
    (setPack p r s).changed =
      s.changed ++ ([.pack p] : List RecordId).filter fun id =>
        (setPack p r s).view id != s.view id := rfl

@[simp] theorem setRamp_pending (i : Fin 4) (r : RampRecord) : (setRamp i r s).pending = s.pending := rfl
@[simp] theorem setRamp_clock (i : Fin 4) (r : RampRecord) : (setRamp i r s).clock = s.clock := rfl
@[simp] theorem setRamp_pins (i : Fin 4) (r : RampRecord) : (setRamp i r s).pins = s.pins := rfl
@[simp] theorem setRamp_part (i : Fin 4) (r : RampRecord) : (setRamp i r s).part = s.part := rfl
@[simp] theorem setRamp_enables (i : Fin 4) (r : RampRecord) : (setRamp i r s).enables = s.enables := rfl
@[simp] theorem setRamp_attention (i : Fin 4) (r : RampRecord) : (setRamp i r s).attention = s.attention := rfl
@[simp] theorem setRamp_misuse (i : Fin 4) (r : RampRecord) : (setRamp i r s).misuse = s.misuse := rfl
@[simp] theorem setRamp_cards (i : Fin 4) (r : RampRecord) : (setRamp i r s).cards = s.cards := rfl
@[simp] theorem setRamp_mem (i : Fin 4) (r : RampRecord) : (setRamp i r s).mem = s.mem := rfl
@[simp] theorem setRamp_tables (i : Fin 4) (r : RampRecord) : (setRamp i r s).tables = s.tables := rfl
@[simp] theorem setRamp_line (i : Fin 4) (r : RampRecord) : (setRamp i r s).line = s.line := rfl
@[simp] theorem setRamp_stations (i : Fin 4) (r : RampRecord) : (setRamp i r s).stations = s.stations := rfl
@[simp] theorem setRamp_packs (i : Fin 4) (r : RampRecord) : (setRamp i r s).packs = s.packs := rfl
@[simp] theorem setRamp_ramps (i : Fin 4) (r : RampRecord) : (setRamp i r s).ramps = s.ramps.set i r := rfl
@[simp] theorem setRamp_doors (i : Fin 4) (r : RampRecord) : (setRamp i r s).doors = s.doors := rfl
@[simp] theorem setRamp_doorUnit (i : Fin 4) (r : RampRecord) : (setRamp i r s).doorUnit = s.doorUnit := rfl
@[simp] theorem setRamp_zones (i : Fin 4) (r : RampRecord) : (setRamp i r s).zones = s.zones := rfl
@[simp] theorem setRamp_slots (i : Fin 4) (r : RampRecord) : (setRamp i r s).slots = s.slots := rfl
@[simp] theorem setRamp_channels (i : Fin 4) (r : RampRecord) : (setRamp i r s).channels = s.channels := rfl
@[simp] theorem setRamp_callUnit (i : Fin 4) (r : RampRecord) : (setRamp i r s).callUnit = s.callUnit := rfl
@[simp] theorem setRamp_watch (i : Fin 4) (r : RampRecord) : (setRamp i r s).watch = s.watch := rfl
@[simp] theorem setRamp_counts (i : Fin 4) (r : RampRecord) : (setRamp i r s).counts = s.counts := rfl
@[simp] theorem setRamp_handovers (i : Fin 4) (r : RampRecord) : (setRamp i r s).handovers = s.handovers := rfl
/-- A record that then shows other fields is noted. -/
@[simp] theorem setRamp_changed (i : Fin 4) (r : RampRecord) :
    (setRamp i r s).changed =
      s.changed ++ ([.ramp i] : List RecordId).filter fun id =>
        (setRamp i r s).view id != s.view id := rfl

@[simp] theorem putDoor_pending (d : Fin 32) (r : DoorRecord) : (putDoor d r s).pending = s.pending := rfl
@[simp] theorem putDoor_clock (d : Fin 32) (r : DoorRecord) : (putDoor d r s).clock = s.clock := rfl
@[simp] theorem putDoor_pins (d : Fin 32) (r : DoorRecord) : (putDoor d r s).pins = s.pins := rfl
@[simp] theorem putDoor_part (d : Fin 32) (r : DoorRecord) : (putDoor d r s).part = s.part := rfl
@[simp] theorem putDoor_enables (d : Fin 32) (r : DoorRecord) : (putDoor d r s).enables = s.enables := rfl
@[simp] theorem putDoor_attention (d : Fin 32) (r : DoorRecord) : (putDoor d r s).attention = s.attention := rfl
@[simp] theorem putDoor_misuse (d : Fin 32) (r : DoorRecord) : (putDoor d r s).misuse = s.misuse := rfl
@[simp] theorem putDoor_cards (d : Fin 32) (r : DoorRecord) : (putDoor d r s).cards = s.cards := rfl
@[simp] theorem putDoor_mem (d : Fin 32) (r : DoorRecord) : (putDoor d r s).mem = s.mem := rfl
@[simp] theorem putDoor_tables (d : Fin 32) (r : DoorRecord) : (putDoor d r s).tables = s.tables := rfl
@[simp] theorem putDoor_line (d : Fin 32) (r : DoorRecord) : (putDoor d r s).line = s.line := rfl
@[simp] theorem putDoor_stations (d : Fin 32) (r : DoorRecord) : (putDoor d r s).stations = s.stations := rfl
@[simp] theorem putDoor_packs (d : Fin 32) (r : DoorRecord) : (putDoor d r s).packs = s.packs := rfl
@[simp] theorem putDoor_ramps (d : Fin 32) (r : DoorRecord) : (putDoor d r s).ramps = s.ramps := rfl
@[simp] theorem putDoor_doors (d : Fin 32) (r : DoorRecord) : (putDoor d r s).doors = s.doors.set d r := rfl
@[simp] theorem putDoor_doorUnit (d : Fin 32) (r : DoorRecord) : (putDoor d r s).doorUnit = s.doorUnit := rfl
@[simp] theorem putDoor_zones (d : Fin 32) (r : DoorRecord) : (putDoor d r s).zones = s.zones := rfl
@[simp] theorem putDoor_slots (d : Fin 32) (r : DoorRecord) : (putDoor d r s).slots = s.slots := rfl
@[simp] theorem putDoor_channels (d : Fin 32) (r : DoorRecord) : (putDoor d r s).channels = s.channels := rfl
@[simp] theorem putDoor_callUnit (d : Fin 32) (r : DoorRecord) : (putDoor d r s).callUnit = s.callUnit := rfl
@[simp] theorem putDoor_watch (d : Fin 32) (r : DoorRecord) : (putDoor d r s).watch = s.watch := rfl
@[simp] theorem putDoor_counts (d : Fin 32) (r : DoorRecord) : (putDoor d r s).counts = s.counts := rfl
@[simp] theorem putDoor_handovers (d : Fin 32) (r : DoorRecord) : (putDoor d r s).handovers = s.handovers := rfl
/-- A record that then shows other fields is noted. -/
@[simp] theorem putDoor_changed (d : Fin 32) (r : DoorRecord) :
    (putDoor d r s).changed =
      s.changed ++ ([.door d] : List RecordId).filter fun id =>
        (putDoor d r s).view id != s.view id := rfl

@[simp] theorem setZone_pending (z : Fin 8) (r : ZoneRecord) : (setZone z r s).pending = s.pending := rfl
@[simp] theorem setZone_clock (z : Fin 8) (r : ZoneRecord) : (setZone z r s).clock = s.clock := rfl
@[simp] theorem setZone_pins (z : Fin 8) (r : ZoneRecord) : (setZone z r s).pins = s.pins := rfl
@[simp] theorem setZone_part (z : Fin 8) (r : ZoneRecord) : (setZone z r s).part = s.part := rfl
@[simp] theorem setZone_enables (z : Fin 8) (r : ZoneRecord) : (setZone z r s).enables = s.enables := rfl
@[simp] theorem setZone_attention (z : Fin 8) (r : ZoneRecord) : (setZone z r s).attention = s.attention := rfl
@[simp] theorem setZone_misuse (z : Fin 8) (r : ZoneRecord) : (setZone z r s).misuse = s.misuse := rfl
@[simp] theorem setZone_cards (z : Fin 8) (r : ZoneRecord) : (setZone z r s).cards = s.cards := rfl
@[simp] theorem setZone_mem (z : Fin 8) (r : ZoneRecord) : (setZone z r s).mem = s.mem := rfl
@[simp] theorem setZone_tables (z : Fin 8) (r : ZoneRecord) : (setZone z r s).tables = s.tables := rfl
@[simp] theorem setZone_line (z : Fin 8) (r : ZoneRecord) : (setZone z r s).line = s.line := rfl
@[simp] theorem setZone_stations (z : Fin 8) (r : ZoneRecord) : (setZone z r s).stations = s.stations := rfl
@[simp] theorem setZone_packs (z : Fin 8) (r : ZoneRecord) : (setZone z r s).packs = s.packs := rfl
@[simp] theorem setZone_ramps (z : Fin 8) (r : ZoneRecord) : (setZone z r s).ramps = s.ramps := rfl
@[simp] theorem setZone_doors (z : Fin 8) (r : ZoneRecord) : (setZone z r s).doors = s.doors := rfl
@[simp] theorem setZone_doorUnit (z : Fin 8) (r : ZoneRecord) : (setZone z r s).doorUnit = s.doorUnit := rfl
@[simp] theorem setZone_zones (z : Fin 8) (r : ZoneRecord) : (setZone z r s).zones = s.zones.set z r := rfl
@[simp] theorem setZone_slots (z : Fin 8) (r : ZoneRecord) : (setZone z r s).slots = s.slots := rfl
@[simp] theorem setZone_channels (z : Fin 8) (r : ZoneRecord) : (setZone z r s).channels = s.channels := rfl
@[simp] theorem setZone_callUnit (z : Fin 8) (r : ZoneRecord) : (setZone z r s).callUnit = s.callUnit := rfl
@[simp] theorem setZone_watch (z : Fin 8) (r : ZoneRecord) : (setZone z r s).watch = s.watch := rfl
@[simp] theorem setZone_counts (z : Fin 8) (r : ZoneRecord) : (setZone z r s).counts = s.counts := rfl
@[simp] theorem setZone_handovers (z : Fin 8) (r : ZoneRecord) : (setZone z r s).handovers = s.handovers := rfl
/-- A record that then shows other fields is noted. -/
@[simp] theorem setZone_changed (z : Fin 8) (r : ZoneRecord) :
    (setZone z r s).changed =
      s.changed ++ ([.zone z] : List RecordId).filter fun id =>
        (setZone z r s).view id != s.view id := rfl

@[simp] theorem setSlot_pending (i : Fin 16) (r : SlotRecord) : (setSlot i r s).pending = s.pending := rfl
@[simp] theorem setSlot_clock (i : Fin 16) (r : SlotRecord) : (setSlot i r s).clock = s.clock := rfl
@[simp] theorem setSlot_pins (i : Fin 16) (r : SlotRecord) : (setSlot i r s).pins = s.pins := rfl
@[simp] theorem setSlot_part (i : Fin 16) (r : SlotRecord) : (setSlot i r s).part = s.part := rfl
@[simp] theorem setSlot_enables (i : Fin 16) (r : SlotRecord) : (setSlot i r s).enables = s.enables := rfl
@[simp] theorem setSlot_attention (i : Fin 16) (r : SlotRecord) : (setSlot i r s).attention = s.attention := rfl
@[simp] theorem setSlot_misuse (i : Fin 16) (r : SlotRecord) : (setSlot i r s).misuse = s.misuse := rfl
@[simp] theorem setSlot_cards (i : Fin 16) (r : SlotRecord) : (setSlot i r s).cards = s.cards := rfl
@[simp] theorem setSlot_mem (i : Fin 16) (r : SlotRecord) : (setSlot i r s).mem = s.mem := rfl
@[simp] theorem setSlot_tables (i : Fin 16) (r : SlotRecord) : (setSlot i r s).tables = s.tables := rfl
@[simp] theorem setSlot_line (i : Fin 16) (r : SlotRecord) : (setSlot i r s).line = s.line := rfl
@[simp] theorem setSlot_stations (i : Fin 16) (r : SlotRecord) : (setSlot i r s).stations = s.stations := rfl
@[simp] theorem setSlot_packs (i : Fin 16) (r : SlotRecord) : (setSlot i r s).packs = s.packs := rfl
@[simp] theorem setSlot_ramps (i : Fin 16) (r : SlotRecord) : (setSlot i r s).ramps = s.ramps := rfl
@[simp] theorem setSlot_doors (i : Fin 16) (r : SlotRecord) : (setSlot i r s).doors = s.doors := rfl
@[simp] theorem setSlot_doorUnit (i : Fin 16) (r : SlotRecord) : (setSlot i r s).doorUnit = s.doorUnit := rfl
@[simp] theorem setSlot_zones (i : Fin 16) (r : SlotRecord) : (setSlot i r s).zones = s.zones := rfl
@[simp] theorem setSlot_slots (i : Fin 16) (r : SlotRecord) : (setSlot i r s).slots = s.slots.set i r := rfl
@[simp] theorem setSlot_channels (i : Fin 16) (r : SlotRecord) : (setSlot i r s).channels = s.channels := rfl
@[simp] theorem setSlot_callUnit (i : Fin 16) (r : SlotRecord) : (setSlot i r s).callUnit = s.callUnit := rfl
@[simp] theorem setSlot_watch (i : Fin 16) (r : SlotRecord) : (setSlot i r s).watch = s.watch := rfl
@[simp] theorem setSlot_counts (i : Fin 16) (r : SlotRecord) : (setSlot i r s).counts = s.counts := rfl
@[simp] theorem setSlot_handovers (i : Fin 16) (r : SlotRecord) : (setSlot i r s).handovers = s.handovers := rfl
/-- A record that then shows other fields is noted. -/
@[simp] theorem setSlot_changed (i : Fin 16) (r : SlotRecord) :
    (setSlot i r s).changed =
      s.changed ++ ([.slot i] : List RecordId).filter fun id =>
        (setSlot i r s).view id != s.view id := rfl

@[simp] theorem setChannel_pending (z : Fin 8) (r : ChannelRecord) : (setChannel z r s).pending = s.pending := rfl
@[simp] theorem setChannel_clock (z : Fin 8) (r : ChannelRecord) : (setChannel z r s).clock = s.clock := rfl
@[simp] theorem setChannel_pins (z : Fin 8) (r : ChannelRecord) : (setChannel z r s).pins = s.pins := rfl
@[simp] theorem setChannel_part (z : Fin 8) (r : ChannelRecord) : (setChannel z r s).part = s.part := rfl
@[simp] theorem setChannel_enables (z : Fin 8) (r : ChannelRecord) : (setChannel z r s).enables = s.enables := rfl
@[simp] theorem setChannel_attention (z : Fin 8) (r : ChannelRecord) : (setChannel z r s).attention = s.attention := rfl
@[simp] theorem setChannel_misuse (z : Fin 8) (r : ChannelRecord) : (setChannel z r s).misuse = s.misuse := rfl
@[simp] theorem setChannel_cards (z : Fin 8) (r : ChannelRecord) : (setChannel z r s).cards = s.cards := rfl
@[simp] theorem setChannel_mem (z : Fin 8) (r : ChannelRecord) : (setChannel z r s).mem = s.mem := rfl
@[simp] theorem setChannel_tables (z : Fin 8) (r : ChannelRecord) : (setChannel z r s).tables = s.tables := rfl
@[simp] theorem setChannel_line (z : Fin 8) (r : ChannelRecord) : (setChannel z r s).line = s.line := rfl
@[simp] theorem setChannel_stations (z : Fin 8) (r : ChannelRecord) : (setChannel z r s).stations = s.stations := rfl
@[simp] theorem setChannel_packs (z : Fin 8) (r : ChannelRecord) : (setChannel z r s).packs = s.packs := rfl
@[simp] theorem setChannel_ramps (z : Fin 8) (r : ChannelRecord) : (setChannel z r s).ramps = s.ramps := rfl
@[simp] theorem setChannel_doors (z : Fin 8) (r : ChannelRecord) : (setChannel z r s).doors = s.doors := rfl
@[simp] theorem setChannel_doorUnit (z : Fin 8) (r : ChannelRecord) : (setChannel z r s).doorUnit = s.doorUnit := rfl
@[simp] theorem setChannel_zones (z : Fin 8) (r : ChannelRecord) : (setChannel z r s).zones = s.zones := rfl
@[simp] theorem setChannel_slots (z : Fin 8) (r : ChannelRecord) : (setChannel z r s).slots = s.slots := rfl
@[simp] theorem setChannel_channels (z : Fin 8) (r : ChannelRecord) : (setChannel z r s).channels = s.channels.set z r := rfl
@[simp] theorem setChannel_callUnit (z : Fin 8) (r : ChannelRecord) : (setChannel z r s).callUnit = s.callUnit := rfl
@[simp] theorem setChannel_watch (z : Fin 8) (r : ChannelRecord) : (setChannel z r s).watch = s.watch := rfl
@[simp] theorem setChannel_counts (z : Fin 8) (r : ChannelRecord) : (setChannel z r s).counts = s.counts := rfl
@[simp] theorem setChannel_handovers (z : Fin 8) (r : ChannelRecord) : (setChannel z r s).handovers = s.handovers := rfl
/-- A record that then shows other fields is noted. -/
@[simp] theorem setChannel_changed (z : Fin 8) (r : ChannelRecord) :
    (setChannel z r s).changed =
      s.changed ++ (((s.channels[z].holder.toList ++ r.holder.toList).map .slot) : List RecordId).filter fun id =>
        (setChannel z r s).view id != s.view id := rfl

@[simp] theorem setWatch_pending (k : Fin 8) (r : WatchRecord) : (setWatch k r s).pending = s.pending := rfl
@[simp] theorem setWatch_clock (k : Fin 8) (r : WatchRecord) : (setWatch k r s).clock = s.clock := rfl
@[simp] theorem setWatch_pins (k : Fin 8) (r : WatchRecord) : (setWatch k r s).pins = s.pins := rfl
@[simp] theorem setWatch_part (k : Fin 8) (r : WatchRecord) : (setWatch k r s).part = s.part := rfl
@[simp] theorem setWatch_enables (k : Fin 8) (r : WatchRecord) : (setWatch k r s).enables = s.enables := rfl
@[simp] theorem setWatch_attention (k : Fin 8) (r : WatchRecord) : (setWatch k r s).attention = s.attention := rfl
@[simp] theorem setWatch_misuse (k : Fin 8) (r : WatchRecord) : (setWatch k r s).misuse = s.misuse := rfl
@[simp] theorem setWatch_cards (k : Fin 8) (r : WatchRecord) : (setWatch k r s).cards = s.cards := rfl
@[simp] theorem setWatch_mem (k : Fin 8) (r : WatchRecord) : (setWatch k r s).mem = s.mem := rfl
@[simp] theorem setWatch_tables (k : Fin 8) (r : WatchRecord) : (setWatch k r s).tables = s.tables := rfl
@[simp] theorem setWatch_line (k : Fin 8) (r : WatchRecord) : (setWatch k r s).line = s.line := rfl
@[simp] theorem setWatch_stations (k : Fin 8) (r : WatchRecord) : (setWatch k r s).stations = s.stations := rfl
@[simp] theorem setWatch_packs (k : Fin 8) (r : WatchRecord) : (setWatch k r s).packs = s.packs := rfl
@[simp] theorem setWatch_ramps (k : Fin 8) (r : WatchRecord) : (setWatch k r s).ramps = s.ramps := rfl
@[simp] theorem setWatch_doors (k : Fin 8) (r : WatchRecord) : (setWatch k r s).doors = s.doors := rfl
@[simp] theorem setWatch_doorUnit (k : Fin 8) (r : WatchRecord) : (setWatch k r s).doorUnit = s.doorUnit := rfl
@[simp] theorem setWatch_zones (k : Fin 8) (r : WatchRecord) : (setWatch k r s).zones = s.zones := rfl
@[simp] theorem setWatch_slots (k : Fin 8) (r : WatchRecord) : (setWatch k r s).slots = s.slots := rfl
@[simp] theorem setWatch_channels (k : Fin 8) (r : WatchRecord) : (setWatch k r s).channels = s.channels := rfl
@[simp] theorem setWatch_callUnit (k : Fin 8) (r : WatchRecord) : (setWatch k r s).callUnit = s.callUnit := rfl
@[simp] theorem setWatch_watch (k : Fin 8) (r : WatchRecord) : (setWatch k r s).watch = s.watch.set k r := rfl
@[simp] theorem setWatch_counts (k : Fin 8) (r : WatchRecord) : (setWatch k r s).counts = s.counts := rfl
@[simp] theorem setWatch_handovers (k : Fin 8) (r : WatchRecord) : (setWatch k r s).handovers = s.handovers := rfl
@[simp] theorem setWatch_changed (k : Fin 8) (r : WatchRecord) : (setWatch k r s).changed = s.changed := rfl

@[simp] theorem setLine_pending (l : Line) : (setLine l s).pending = s.pending := rfl
@[simp] theorem setLine_clock (l : Line) : (setLine l s).clock = s.clock := rfl
@[simp] theorem setLine_pins (l : Line) : (setLine l s).pins = s.pins := rfl
@[simp] theorem setLine_part (l : Line) : (setLine l s).part = s.part := rfl
@[simp] theorem setLine_enables (l : Line) : (setLine l s).enables = s.enables := rfl
@[simp] theorem setLine_attention (l : Line) : (setLine l s).attention = s.attention := rfl
@[simp] theorem setLine_misuse (l : Line) : (setLine l s).misuse = s.misuse := rfl
@[simp] theorem setLine_cards (l : Line) : (setLine l s).cards = s.cards := rfl
@[simp] theorem setLine_mem (l : Line) : (setLine l s).mem = s.mem := rfl
@[simp] theorem setLine_tables (l : Line) : (setLine l s).tables = s.tables := rfl
@[simp] theorem setLine_line (l : Line) : (setLine l s).line = l := rfl
@[simp] theorem setLine_stations (l : Line) : (setLine l s).stations = s.stations := rfl
@[simp] theorem setLine_packs (l : Line) : (setLine l s).packs = s.packs := rfl
@[simp] theorem setLine_ramps (l : Line) : (setLine l s).ramps = s.ramps := rfl
@[simp] theorem setLine_doors (l : Line) : (setLine l s).doors = s.doors := rfl
@[simp] theorem setLine_doorUnit (l : Line) : (setLine l s).doorUnit = s.doorUnit := rfl
@[simp] theorem setLine_zones (l : Line) : (setLine l s).zones = s.zones := rfl
@[simp] theorem setLine_slots (l : Line) : (setLine l s).slots = s.slots := rfl
@[simp] theorem setLine_channels (l : Line) : (setLine l s).channels = s.channels := rfl
@[simp] theorem setLine_callUnit (l : Line) : (setLine l s).callUnit = s.callUnit := rfl
@[simp] theorem setLine_watch (l : Line) : (setLine l s).watch = s.watch := rfl
@[simp] theorem setLine_counts (l : Line) : (setLine l s).counts = s.counts := rfl
@[simp] theorem setLine_handovers (l : Line) : (setLine l s).handovers = s.handovers := rfl
@[simp] theorem setLine_changed (l : Line) : (setLine l s).changed = s.changed := rfl

@[simp] theorem setRelation_pending (p : Fin 2) (r : PackRelation) : (setRelation p r s).pending = s.pending := rfl
@[simp] theorem setRelation_clock (p : Fin 2) (r : PackRelation) : (setRelation p r s).clock = s.clock := rfl
@[simp] theorem setRelation_pins (p : Fin 2) (r : PackRelation) : (setRelation p r s).pins = s.pins := rfl
@[simp] theorem setRelation_part (p : Fin 2) (r : PackRelation) : (setRelation p r s).part = s.part := rfl
@[simp] theorem setRelation_enables (p : Fin 2) (r : PackRelation) : (setRelation p r s).enables = s.enables := rfl
@[simp] theorem setRelation_attention (p : Fin 2) (r : PackRelation) : (setRelation p r s).attention = s.attention := rfl
@[simp] theorem setRelation_misuse (p : Fin 2) (r : PackRelation) : (setRelation p r s).misuse = s.misuse := rfl
@[simp] theorem setRelation_cards (p : Fin 2) (r : PackRelation) : (setRelation p r s).cards = s.cards := rfl
@[simp] theorem setRelation_mem (p : Fin 2) (r : PackRelation) : (setRelation p r s).mem = s.mem := rfl
@[simp] theorem setRelation_tables (p : Fin 2) (r : PackRelation) : (setRelation p r s).tables = s.tables := rfl
@[simp] theorem setRelation_line (p : Fin 2) (r : PackRelation) : (setRelation p r s).line = s.line := rfl
@[simp] theorem setRelation_stations (p : Fin 2) (r : PackRelation) : (setRelation p r s).stations = s.stations := rfl
@[simp] theorem setRelation_packs (p : Fin 2) (r : PackRelation) : (setRelation p r s).packs = s.packs := rfl
@[simp] theorem setRelation_ramps (p : Fin 2) (r : PackRelation) : (setRelation p r s).ramps = s.ramps := rfl
@[simp] theorem setRelation_doors (p : Fin 2) (r : PackRelation) : (setRelation p r s).doors = s.doors := rfl
@[simp] theorem setRelation_doorUnit (p : Fin 2) (r : PackRelation) : (setRelation p r s).doorUnit = { s.doorUnit with relation := s.doorUnit.relation.set p r } := rfl
@[simp] theorem setRelation_zones (p : Fin 2) (r : PackRelation) : (setRelation p r s).zones = s.zones := rfl
@[simp] theorem setRelation_slots (p : Fin 2) (r : PackRelation) : (setRelation p r s).slots = s.slots := rfl
@[simp] theorem setRelation_channels (p : Fin 2) (r : PackRelation) : (setRelation p r s).channels = s.channels := rfl
@[simp] theorem setRelation_callUnit (p : Fin 2) (r : PackRelation) : (setRelation p r s).callUnit = s.callUnit := rfl
@[simp] theorem setRelation_watch (p : Fin 2) (r : PackRelation) : (setRelation p r s).watch = s.watch := rfl
@[simp] theorem setRelation_counts (p : Fin 2) (r : PackRelation) : (setRelation p r s).counts = s.counts := rfl
@[simp] theorem setRelation_handovers (p : Fin 2) (r : PackRelation) : (setRelation p r s).handovers = s.handovers := rfl
@[simp] theorem setRelation_changed (p : Fin 2) (r : PackRelation) : (setRelation p r s).changed = s.changed := rfl

@[simp] theorem setRampStowed_pending (r : Fin 4) (b : Bool) : (setRampStowed r b s).pending = s.pending := rfl
@[simp] theorem setRampStowed_clock (r : Fin 4) (b : Bool) : (setRampStowed r b s).clock = s.clock := rfl
@[simp] theorem setRampStowed_pins (r : Fin 4) (b : Bool) : (setRampStowed r b s).pins = s.pins := rfl
@[simp] theorem setRampStowed_part (r : Fin 4) (b : Bool) : (setRampStowed r b s).part = s.part := rfl
@[simp] theorem setRampStowed_enables (r : Fin 4) (b : Bool) : (setRampStowed r b s).enables = s.enables := rfl
@[simp] theorem setRampStowed_attention (r : Fin 4) (b : Bool) : (setRampStowed r b s).attention = s.attention := rfl
@[simp] theorem setRampStowed_misuse (r : Fin 4) (b : Bool) : (setRampStowed r b s).misuse = s.misuse := rfl
@[simp] theorem setRampStowed_cards (r : Fin 4) (b : Bool) : (setRampStowed r b s).cards = s.cards := rfl
@[simp] theorem setRampStowed_mem (r : Fin 4) (b : Bool) : (setRampStowed r b s).mem = s.mem := rfl
@[simp] theorem setRampStowed_tables (r : Fin 4) (b : Bool) : (setRampStowed r b s).tables = s.tables := rfl
@[simp] theorem setRampStowed_line (r : Fin 4) (b : Bool) : (setRampStowed r b s).line = s.line := rfl
@[simp] theorem setRampStowed_stations (r : Fin 4) (b : Bool) : (setRampStowed r b s).stations = s.stations := rfl
@[simp] theorem setRampStowed_packs (r : Fin 4) (b : Bool) : (setRampStowed r b s).packs = s.packs := rfl
@[simp] theorem setRampStowed_ramps (r : Fin 4) (b : Bool) : (setRampStowed r b s).ramps = s.ramps := rfl
@[simp] theorem setRampStowed_doors (r : Fin 4) (b : Bool) : (setRampStowed r b s).doors = s.doors := rfl
@[simp] theorem setRampStowed_doorUnit (r : Fin 4) (b : Bool) : (setRampStowed r b s).doorUnit = { s.doorUnit with rampStowed := s.doorUnit.rampStowed.set r b } := rfl
@[simp] theorem setRampStowed_zones (r : Fin 4) (b : Bool) : (setRampStowed r b s).zones = s.zones := rfl
@[simp] theorem setRampStowed_slots (r : Fin 4) (b : Bool) : (setRampStowed r b s).slots = s.slots := rfl
@[simp] theorem setRampStowed_channels (r : Fin 4) (b : Bool) : (setRampStowed r b s).channels = s.channels := rfl
@[simp] theorem setRampStowed_callUnit (r : Fin 4) (b : Bool) : (setRampStowed r b s).callUnit = s.callUnit := rfl
@[simp] theorem setRampStowed_watch (r : Fin 4) (b : Bool) : (setRampStowed r b s).watch = s.watch := rfl
@[simp] theorem setRampStowed_counts (r : Fin 4) (b : Bool) : (setRampStowed r b s).counts = s.counts := rfl
@[simp] theorem setRampStowed_handovers (r : Fin 4) (b : Bool) : (setRampStowed r b s).handovers = s.handovers := rfl
@[simp] theorem setRampStowed_changed (r : Fin 4) (b : Bool) : (setRampStowed r b s).changed = s.changed := rfl

@[simp] theorem advanceDoorArrival_pending : (advanceDoorArrival s).pending = s.pending := rfl
@[simp] theorem advanceDoorArrival_clock : (advanceDoorArrival s).clock = s.clock := rfl
@[simp] theorem advanceDoorArrival_pins : (advanceDoorArrival s).pins = s.pins := rfl
@[simp] theorem advanceDoorArrival_part : (advanceDoorArrival s).part = s.part := rfl
@[simp] theorem advanceDoorArrival_enables : (advanceDoorArrival s).enables = s.enables := rfl
@[simp] theorem advanceDoorArrival_attention : (advanceDoorArrival s).attention = s.attention := rfl
@[simp] theorem advanceDoorArrival_misuse : (advanceDoorArrival s).misuse = s.misuse := rfl
@[simp] theorem advanceDoorArrival_cards : (advanceDoorArrival s).cards = s.cards := rfl
@[simp] theorem advanceDoorArrival_mem : (advanceDoorArrival s).mem = s.mem := rfl
@[simp] theorem advanceDoorArrival_tables : (advanceDoorArrival s).tables = s.tables := rfl
@[simp] theorem advanceDoorArrival_line : (advanceDoorArrival s).line = s.line := rfl
@[simp] theorem advanceDoorArrival_stations : (advanceDoorArrival s).stations = s.stations := rfl
@[simp] theorem advanceDoorArrival_packs : (advanceDoorArrival s).packs = s.packs := rfl
@[simp] theorem advanceDoorArrival_ramps : (advanceDoorArrival s).ramps = s.ramps := rfl
@[simp] theorem advanceDoorArrival_doors : (advanceDoorArrival s).doors = s.doors := rfl
@[simp] theorem advanceDoorArrival_doorUnit : (advanceDoorArrival s).doorUnit = { s.doorUnit with nextArrival := s.doorUnit.nextArrival + 1 } := rfl
@[simp] theorem advanceDoorArrival_zones : (advanceDoorArrival s).zones = s.zones := rfl
@[simp] theorem advanceDoorArrival_slots : (advanceDoorArrival s).slots = s.slots := rfl
@[simp] theorem advanceDoorArrival_channels : (advanceDoorArrival s).channels = s.channels := rfl
@[simp] theorem advanceDoorArrival_callUnit : (advanceDoorArrival s).callUnit = s.callUnit := rfl
@[simp] theorem advanceDoorArrival_watch : (advanceDoorArrival s).watch = s.watch := rfl
@[simp] theorem advanceDoorArrival_counts : (advanceDoorArrival s).counts = s.counts := rfl
@[simp] theorem advanceDoorArrival_handovers : (advanceDoorArrival s).handovers = s.handovers := rfl
@[simp] theorem advanceDoorArrival_changed : (advanceDoorArrival s).changed = s.changed := rfl

@[simp] theorem setZoneCopy_pending (z : Fin 8) (st : ZoneState) : (setZoneCopy z st s).pending = s.pending := rfl
@[simp] theorem setZoneCopy_clock (z : Fin 8) (st : ZoneState) : (setZoneCopy z st s).clock = s.clock := rfl
@[simp] theorem setZoneCopy_pins (z : Fin 8) (st : ZoneState) : (setZoneCopy z st s).pins = s.pins := rfl
@[simp] theorem setZoneCopy_part (z : Fin 8) (st : ZoneState) : (setZoneCopy z st s).part = s.part := rfl
@[simp] theorem setZoneCopy_enables (z : Fin 8) (st : ZoneState) : (setZoneCopy z st s).enables = s.enables := rfl
@[simp] theorem setZoneCopy_attention (z : Fin 8) (st : ZoneState) : (setZoneCopy z st s).attention = s.attention := rfl
@[simp] theorem setZoneCopy_misuse (z : Fin 8) (st : ZoneState) : (setZoneCopy z st s).misuse = s.misuse := rfl
@[simp] theorem setZoneCopy_cards (z : Fin 8) (st : ZoneState) : (setZoneCopy z st s).cards = s.cards := rfl
@[simp] theorem setZoneCopy_mem (z : Fin 8) (st : ZoneState) : (setZoneCopy z st s).mem = s.mem := rfl
@[simp] theorem setZoneCopy_tables (z : Fin 8) (st : ZoneState) : (setZoneCopy z st s).tables = s.tables := rfl
@[simp] theorem setZoneCopy_line (z : Fin 8) (st : ZoneState) : (setZoneCopy z st s).line = s.line := rfl
@[simp] theorem setZoneCopy_stations (z : Fin 8) (st : ZoneState) : (setZoneCopy z st s).stations = s.stations := rfl
@[simp] theorem setZoneCopy_packs (z : Fin 8) (st : ZoneState) : (setZoneCopy z st s).packs = s.packs := rfl
@[simp] theorem setZoneCopy_ramps (z : Fin 8) (st : ZoneState) : (setZoneCopy z st s).ramps = s.ramps := rfl
@[simp] theorem setZoneCopy_doors (z : Fin 8) (st : ZoneState) : (setZoneCopy z st s).doors = s.doors := rfl
@[simp] theorem setZoneCopy_doorUnit (z : Fin 8) (st : ZoneState) : (setZoneCopy z st s).doorUnit = s.doorUnit := rfl
@[simp] theorem setZoneCopy_zones (z : Fin 8) (st : ZoneState) : (setZoneCopy z st s).zones = s.zones := rfl
@[simp] theorem setZoneCopy_slots (z : Fin 8) (st : ZoneState) : (setZoneCopy z st s).slots = s.slots := rfl
@[simp] theorem setZoneCopy_channels (z : Fin 8) (st : ZoneState) : (setZoneCopy z st s).channels = s.channels := rfl
@[simp] theorem setZoneCopy_callUnit (z : Fin 8) (st : ZoneState) : (setZoneCopy z st s).callUnit = { s.callUnit with zoneCopy := s.callUnit.zoneCopy.set z st } := rfl
@[simp] theorem setZoneCopy_watch (z : Fin 8) (st : ZoneState) : (setZoneCopy z st s).watch = s.watch := rfl
@[simp] theorem setZoneCopy_counts (z : Fin 8) (st : ZoneState) : (setZoneCopy z st s).counts = s.counts := rfl
@[simp] theorem setZoneCopy_handovers (z : Fin 8) (st : ZoneState) : (setZoneCopy z st s).handovers = s.handovers := rfl
@[simp] theorem setZoneCopy_changed (z : Fin 8) (st : ZoneState) : (setZoneCopy z st s).changed = s.changed := rfl

@[simp] theorem advanceClock_pending (n : Clock) : (advanceClock n s).pending = s.pending := rfl
@[simp] theorem advanceClock_clock (n : Clock) : (advanceClock n s).clock = s.clock + n := rfl
@[simp] theorem advanceClock_pins (n : Clock) : (advanceClock n s).pins = s.pins := rfl
@[simp] theorem advanceClock_part (n : Clock) : (advanceClock n s).part = s.part := rfl
@[simp] theorem advanceClock_enables (n : Clock) : (advanceClock n s).enables = s.enables := rfl
@[simp] theorem advanceClock_attention (n : Clock) : (advanceClock n s).attention = s.attention := rfl
@[simp] theorem advanceClock_misuse (n : Clock) : (advanceClock n s).misuse = s.misuse := rfl
@[simp] theorem advanceClock_cards (n : Clock) : (advanceClock n s).cards = s.cards := rfl
@[simp] theorem advanceClock_mem (n : Clock) : (advanceClock n s).mem = s.mem := rfl
@[simp] theorem advanceClock_tables (n : Clock) : (advanceClock n s).tables = s.tables := rfl
@[simp] theorem advanceClock_line (n : Clock) : (advanceClock n s).line = s.line := rfl
@[simp] theorem advanceClock_stations (n : Clock) : (advanceClock n s).stations = s.stations := rfl
@[simp] theorem advanceClock_packs (n : Clock) : (advanceClock n s).packs = s.packs := rfl
@[simp] theorem advanceClock_ramps (n : Clock) : (advanceClock n s).ramps = s.ramps := rfl
@[simp] theorem advanceClock_doors (n : Clock) : (advanceClock n s).doors = s.doors := rfl
@[simp] theorem advanceClock_doorUnit (n : Clock) : (advanceClock n s).doorUnit = s.doorUnit := rfl
@[simp] theorem advanceClock_zones (n : Clock) : (advanceClock n s).zones = s.zones := rfl
@[simp] theorem advanceClock_slots (n : Clock) : (advanceClock n s).slots = s.slots := rfl
@[simp] theorem advanceClock_channels (n : Clock) : (advanceClock n s).channels = s.channels := rfl
@[simp] theorem advanceClock_callUnit (n : Clock) : (advanceClock n s).callUnit = s.callUnit := rfl
@[simp] theorem advanceClock_watch (n : Clock) : (advanceClock n s).watch = s.watch := rfl
@[simp] theorem advanceClock_counts (n : Clock) : (advanceClock n s).counts = s.counts := rfl
@[simp] theorem advanceClock_handovers (n : Clock) : (advanceClock n s).handovers = s.handovers := rfl
@[simp] theorem advanceClock_changed (n : Clock) : (advanceClock n s).changed = s.changed := rfl

@[simp] theorem setCardState_pending (c : CardId) (st : CardState) : (setCardState c st s).pending = s.pending := rfl
@[simp] theorem setCardState_clock (c : CardId) (st : CardState) : (setCardState c st s).clock = s.clock := rfl
@[simp] theorem setCardState_pins (c : CardId) (st : CardState) : (setCardState c st s).pins = s.pins := rfl
@[simp] theorem setCardState_part (c : CardId) (st : CardState) : (setCardState c st s).part = s.part := rfl
@[simp] theorem setCardState_enables (c : CardId) (st : CardState) : (setCardState c st s).enables = s.enables := rfl
@[simp] theorem setCardState_attention (c : CardId) (st : CardState) : (setCardState c st s).attention = s.attention := rfl
@[simp] theorem setCardState_misuse (c : CardId) (st : CardState) : (setCardState c st s).misuse = s.misuse := rfl
@[simp] theorem setCardState_cards (c : CardId) (st : CardState) : (setCardState c st s).cards = { s.cards with shadow := s.cards.shadow.set c st } := rfl
@[simp] theorem setCardState_mem (c : CardId) (st : CardState) : (setCardState c st s).mem = s.mem := rfl
@[simp] theorem setCardState_tables (c : CardId) (st : CardState) : (setCardState c st s).tables = s.tables := rfl
@[simp] theorem setCardState_line (c : CardId) (st : CardState) : (setCardState c st s).line = s.line := rfl
@[simp] theorem setCardState_stations (c : CardId) (st : CardState) : (setCardState c st s).stations = s.stations := rfl
@[simp] theorem setCardState_packs (c : CardId) (st : CardState) : (setCardState c st s).packs = s.packs := rfl
@[simp] theorem setCardState_ramps (c : CardId) (st : CardState) : (setCardState c st s).ramps = s.ramps := rfl
@[simp] theorem setCardState_doors (c : CardId) (st : CardState) : (setCardState c st s).doors = s.doors := rfl
@[simp] theorem setCardState_doorUnit (c : CardId) (st : CardState) : (setCardState c st s).doorUnit = s.doorUnit := rfl
@[simp] theorem setCardState_zones (c : CardId) (st : CardState) : (setCardState c st s).zones = s.zones := rfl
@[simp] theorem setCardState_slots (c : CardId) (st : CardState) : (setCardState c st s).slots = s.slots := rfl
@[simp] theorem setCardState_channels (c : CardId) (st : CardState) : (setCardState c st s).channels = s.channels := rfl
@[simp] theorem setCardState_callUnit (c : CardId) (st : CardState) : (setCardState c st s).callUnit = s.callUnit := rfl
@[simp] theorem setCardState_watch (c : CardId) (st : CardState) : (setCardState c st s).watch = s.watch := rfl
@[simp] theorem setCardState_counts (c : CardId) (st : CardState) : (setCardState c st s).counts = s.counts := rfl
@[simp] theorem setCardState_handovers (c : CardId) (st : CardState) : (setCardState c st s).handovers = s.handovers := rfl
@[simp] theorem setCardState_changed (c : CardId) (st : CardState) : (setCardState c st s).changed = s.changed := rfl

@[simp] theorem appendIntake_pending (c : CardId) : (appendIntake c s).pending = s.pending := rfl
@[simp] theorem appendIntake_clock (c : CardId) : (appendIntake c s).clock = s.clock := rfl
@[simp] theorem appendIntake_pins (c : CardId) : (appendIntake c s).pins = s.pins := rfl
@[simp] theorem appendIntake_part (c : CardId) : (appendIntake c s).part = s.part := rfl
@[simp] theorem appendIntake_enables (c : CardId) : (appendIntake c s).enables = s.enables := rfl
@[simp] theorem appendIntake_attention (c : CardId) : (appendIntake c s).attention = s.attention := rfl
@[simp] theorem appendIntake_misuse (c : CardId) : (appendIntake c s).misuse = s.misuse := rfl
@[simp] theorem appendIntake_cards (c : CardId) : (appendIntake c s).cards = { s.cards with intake := s.cards.intake ++ [c] } := rfl
@[simp] theorem appendIntake_mem (c : CardId) : (appendIntake c s).mem = s.mem := rfl
@[simp] theorem appendIntake_tables (c : CardId) : (appendIntake c s).tables = s.tables := rfl
@[simp] theorem appendIntake_line (c : CardId) : (appendIntake c s).line = s.line := rfl
@[simp] theorem appendIntake_stations (c : CardId) : (appendIntake c s).stations = s.stations := rfl
@[simp] theorem appendIntake_packs (c : CardId) : (appendIntake c s).packs = s.packs := rfl
@[simp] theorem appendIntake_ramps (c : CardId) : (appendIntake c s).ramps = s.ramps := rfl
@[simp] theorem appendIntake_doors (c : CardId) : (appendIntake c s).doors = s.doors := rfl
@[simp] theorem appendIntake_doorUnit (c : CardId) : (appendIntake c s).doorUnit = s.doorUnit := rfl
@[simp] theorem appendIntake_zones (c : CardId) : (appendIntake c s).zones = s.zones := rfl
@[simp] theorem appendIntake_slots (c : CardId) : (appendIntake c s).slots = s.slots := rfl
@[simp] theorem appendIntake_channels (c : CardId) : (appendIntake c s).channels = s.channels := rfl
@[simp] theorem appendIntake_callUnit (c : CardId) : (appendIntake c s).callUnit = s.callUnit := rfl
@[simp] theorem appendIntake_watch (c : CardId) : (appendIntake c s).watch = s.watch := rfl
@[simp] theorem appendIntake_counts (c : CardId) : (appendIntake c s).counts = s.counts := rfl
@[simp] theorem appendIntake_handovers (c : CardId) : (appendIntake c s).handovers = s.handovers := rfl
@[simp] theorem appendIntake_changed (c : CardId) : (appendIntake c s).changed = s.changed := rfl

@[simp] theorem removeIntake_pending (c : CardId) : (removeIntake c s).pending = s.pending := rfl
@[simp] theorem removeIntake_clock (c : CardId) : (removeIntake c s).clock = s.clock := rfl
@[simp] theorem removeIntake_pins (c : CardId) : (removeIntake c s).pins = s.pins := rfl
@[simp] theorem removeIntake_part (c : CardId) : (removeIntake c s).part = s.part := rfl
@[simp] theorem removeIntake_enables (c : CardId) : (removeIntake c s).enables = s.enables := rfl
@[simp] theorem removeIntake_attention (c : CardId) : (removeIntake c s).attention = s.attention := rfl
@[simp] theorem removeIntake_misuse (c : CardId) : (removeIntake c s).misuse = s.misuse := rfl
@[simp] theorem removeIntake_cards (c : CardId) : (removeIntake c s).cards = { s.cards with intake := s.cards.intake.filter (· != c) } := rfl
@[simp] theorem removeIntake_mem (c : CardId) : (removeIntake c s).mem = s.mem := rfl
@[simp] theorem removeIntake_tables (c : CardId) : (removeIntake c s).tables = s.tables := rfl
@[simp] theorem removeIntake_line (c : CardId) : (removeIntake c s).line = s.line := rfl
@[simp] theorem removeIntake_stations (c : CardId) : (removeIntake c s).stations = s.stations := rfl
@[simp] theorem removeIntake_packs (c : CardId) : (removeIntake c s).packs = s.packs := rfl
@[simp] theorem removeIntake_ramps (c : CardId) : (removeIntake c s).ramps = s.ramps := rfl
@[simp] theorem removeIntake_doors (c : CardId) : (removeIntake c s).doors = s.doors := rfl
@[simp] theorem removeIntake_doorUnit (c : CardId) : (removeIntake c s).doorUnit = s.doorUnit := rfl
@[simp] theorem removeIntake_zones (c : CardId) : (removeIntake c s).zones = s.zones := rfl
@[simp] theorem removeIntake_slots (c : CardId) : (removeIntake c s).slots = s.slots := rfl
@[simp] theorem removeIntake_channels (c : CardId) : (removeIntake c s).channels = s.channels := rfl
@[simp] theorem removeIntake_callUnit (c : CardId) : (removeIntake c s).callUnit = s.callUnit := rfl
@[simp] theorem removeIntake_watch (c : CardId) : (removeIntake c s).watch = s.watch := rfl
@[simp] theorem removeIntake_counts (c : CardId) : (removeIntake c s).counts = s.counts := rfl
@[simp] theorem removeIntake_handovers (c : CardId) : (removeIntake c s).handovers = s.handovers := rfl
@[simp] theorem removeIntake_changed (c : CardId) : (removeIntake c s).changed = s.changed := rfl

@[simp] theorem handOver_pending (h : Handover) : (handOver h s).pending = s.pending := rfl
@[simp] theorem handOver_clock (h : Handover) : (handOver h s).clock = s.clock := rfl
@[simp] theorem handOver_pins (h : Handover) : (handOver h s).pins = s.pins := rfl
@[simp] theorem handOver_part (h : Handover) : (handOver h s).part = s.part := rfl
@[simp] theorem handOver_enables (h : Handover) : (handOver h s).enables = s.enables := rfl
@[simp] theorem handOver_attention (h : Handover) : (handOver h s).attention = s.attention := rfl
@[simp] theorem handOver_misuse (h : Handover) : (handOver h s).misuse = s.misuse := rfl
@[simp] theorem handOver_cards (h : Handover) : (handOver h s).cards = s.cards := rfl
@[simp] theorem handOver_mem (h : Handover) : (handOver h s).mem = s.mem := rfl
@[simp] theorem handOver_tables (h : Handover) : (handOver h s).tables = s.tables := rfl
@[simp] theorem handOver_line (h : Handover) : (handOver h s).line = s.line := rfl
@[simp] theorem handOver_stations (h : Handover) : (handOver h s).stations = s.stations := rfl
@[simp] theorem handOver_packs (h : Handover) : (handOver h s).packs = s.packs := rfl
@[simp] theorem handOver_ramps (h : Handover) : (handOver h s).ramps = s.ramps := rfl
@[simp] theorem handOver_doors (h : Handover) : (handOver h s).doors = s.doors := rfl
@[simp] theorem handOver_doorUnit (h : Handover) : (handOver h s).doorUnit = s.doorUnit := rfl
@[simp] theorem handOver_zones (h : Handover) : (handOver h s).zones = s.zones := rfl
@[simp] theorem handOver_slots (h : Handover) : (handOver h s).slots = s.slots := rfl
@[simp] theorem handOver_channels (h : Handover) : (handOver h s).channels = s.channels := rfl
@[simp] theorem handOver_callUnit (h : Handover) : (handOver h s).callUnit = s.callUnit := rfl
@[simp] theorem handOver_watch (h : Handover) : (handOver h s).watch = s.watch := rfl
@[simp] theorem handOver_counts (h : Handover) : (handOver h s).counts = s.counts := rfl
@[simp] theorem handOver_handovers (h : Handover) : (handOver h s).handovers = s.handovers.filter (· != h) ++ [h] := rfl
@[simp] theorem handOver_changed (h : Handover) : (handOver h s).changed = s.changed := rfl

@[simp] theorem dropHandover_pending (h : Handover) : (dropHandover h s).pending = s.pending := rfl
@[simp] theorem dropHandover_clock (h : Handover) : (dropHandover h s).clock = s.clock := rfl
@[simp] theorem dropHandover_pins (h : Handover) : (dropHandover h s).pins = s.pins := rfl
@[simp] theorem dropHandover_part (h : Handover) : (dropHandover h s).part = s.part := rfl
@[simp] theorem dropHandover_enables (h : Handover) : (dropHandover h s).enables = s.enables := rfl
@[simp] theorem dropHandover_attention (h : Handover) : (dropHandover h s).attention = s.attention := rfl
@[simp] theorem dropHandover_misuse (h : Handover) : (dropHandover h s).misuse = s.misuse := rfl
@[simp] theorem dropHandover_cards (h : Handover) : (dropHandover h s).cards = s.cards := rfl
@[simp] theorem dropHandover_mem (h : Handover) : (dropHandover h s).mem = s.mem := rfl
@[simp] theorem dropHandover_tables (h : Handover) : (dropHandover h s).tables = s.tables := rfl
@[simp] theorem dropHandover_line (h : Handover) : (dropHandover h s).line = s.line := rfl
@[simp] theorem dropHandover_stations (h : Handover) : (dropHandover h s).stations = s.stations := rfl
@[simp] theorem dropHandover_packs (h : Handover) : (dropHandover h s).packs = s.packs := rfl
@[simp] theorem dropHandover_ramps (h : Handover) : (dropHandover h s).ramps = s.ramps := rfl
@[simp] theorem dropHandover_doors (h : Handover) : (dropHandover h s).doors = s.doors := rfl
@[simp] theorem dropHandover_doorUnit (h : Handover) : (dropHandover h s).doorUnit = s.doorUnit := rfl
@[simp] theorem dropHandover_zones (h : Handover) : (dropHandover h s).zones = s.zones := rfl
@[simp] theorem dropHandover_slots (h : Handover) : (dropHandover h s).slots = s.slots := rfl
@[simp] theorem dropHandover_channels (h : Handover) : (dropHandover h s).channels = s.channels := rfl
@[simp] theorem dropHandover_callUnit (h : Handover) : (dropHandover h s).callUnit = s.callUnit := rfl
@[simp] theorem dropHandover_watch (h : Handover) : (dropHandover h s).watch = s.watch := rfl
@[simp] theorem dropHandover_counts (h : Handover) : (dropHandover h s).counts = s.counts := rfl
@[simp] theorem dropHandover_handovers (h : Handover) : (dropHandover h s).handovers = s.handovers.filter (· != h) := rfl
@[simp] theorem dropHandover_changed (h : Handover) : (dropHandover h s).changed = s.changed := rfl

/-- A record set is the record read there, and no other record changes. -/
theorem setStation_get (i j : Fin 48) (r : StationRecord) :
    (setStation i r s).stations[j] = if i = j then r else s.stations[j] := by
  simp [Vector.getElem_set, Fin.ext_iff]

/-- A record set is the record read there, and no other record changes. -/
theorem setPack_get (i j : Fin 2) (r : PackRecord) :
    (setPack i r s).packs[j] = if i = j then r else s.packs[j] := by
  simp [Vector.getElem_set, Fin.ext_iff]

/-- A record set is the record read there, and no other record changes. -/
theorem setRamp_get (i j : Fin 4) (r : RampRecord) :
    (setRamp i r s).ramps[j] = if i = j then r else s.ramps[j] := by
  simp [Vector.getElem_set, Fin.ext_iff]

/-- A record set is the record read there, and no other record changes. -/
theorem putDoor_get (i j : Fin 32) (r : DoorRecord) :
    (putDoor i r s).doors[j] = if i = j then r else s.doors[j] := by
  simp [Vector.getElem_set, Fin.ext_iff]

/-- A record set is the record read there, and no other record changes. -/
theorem setZone_get (i j : Fin 8) (r : ZoneRecord) :
    (setZone i r s).zones[j] = if i = j then r else s.zones[j] := by
  simp [Vector.getElem_set, Fin.ext_iff]

/-- A record set is the record read there, and no other record changes. -/
theorem setSlot_get (i j : Fin 16) (r : SlotRecord) :
    (setSlot i r s).slots[j] = if i = j then r else s.slots[j] := by
  simp [Vector.getElem_set, Fin.ext_iff]

/-- A record set is the record read there, and no other record changes. -/
theorem setChannel_get (i j : Fin 8) (r : ChannelRecord) :
    (setChannel i r s).channels[j] = if i = j then r else s.channels[j] := by
  simp [Vector.getElem_set, Fin.ext_iff]

/-- A record set is the record read there, and no other record changes. -/
theorem setWatch_get (i j : Fin 8) (r : WatchRecord) :
    (setWatch i r s).watch[j] = if i = j then r else s.watch[j] := by
  simp [Vector.getElem_set, Fin.ext_iff]

end Sys2Proof.Machine
end

