-- ==== Sys2Proof/Laws/Keeps.lean ====
section
/-! SUPPORT. The relation every operation on the part's records stands in with its result: the pieces it may
touch, what becomes of cards and memory, flags that stay set, the line's list with one entry a station, rejoins at
LOST stations alone, and that every record it changes is noted or has been rewritten (`Touches`); with the composed
images that follow the contributions (`Keeps`). Then that relation for each named update. -/

namespace Sys2Proof.Machine

-- One theorem at a time: many at once take much memory.
set_option Elab.async false

/-- An image record of an owner: any but a watch channel's. -/
def RecordId.isOwned (id : RecordId) : Prop := ∀ k, id ≠ .watch k

/-- The rewrites of a record that lie between two states: its count has advanced by 2 for each. After one its
category's flag is set; with none it shows the same fields, or is noted (R186, LOG 9). -/
def RewrittenOrNoted (id : RecordId) (s t : State) : Prop :=
  ∃ n : Nat, t.changeCount id = s.changeCount id + BitVec.ofNat 16 (2 * n) ∧
    (n = 0 → t.view id = s.view id ∨ id ∈ t.changed) ∧ (n ≠ 0 → t.hasFlag id.flag = true)

/-- What an operation that touches only some pieces leaves in place, but for the composed images' following. -/
structure Touches (touched : List Piece) (s t : State) : Prop where
  same : SameBut touched s t
  settled : ∀ c, s.settled c → t.settled c
  cards : ∀ c, t.cardState c = s.cardState c ∨ t.settled c
  memory : ∀ a, (∀ c, isOutcomeWord c a → ¬ t.settled c) → t.mem.read a = s.mem.read a
  flags : FlagsStay s t
  memoryOk : s.memoryOk = true → t.memoryOk = true
  noted : ∀ id ∈ s.changed, id ∈ t.changed
  once : s.listOnce → t.listOnce
  rejoins : s.rejoinsLost → t.rejoinsLost
  rewrites : ∀ id, id.isOwned → RewrittenOrNoted id s t

/-- What an operation that touches only some pieces keeps: the composed images follow the contributions after it
if they did before (R36). -/
structure Keeps (touched : List Piece) (s t : State) : Prop extends Touches touched s t where
  images : s.imagesFollow → t.imagesFollow

/-- Every piece of one list is in another. -/
def within (a b : List Piece) : Bool := a.all b.contains

theorem within_mem {a b : List Piece} (h : within a b = true) {p : Piece} (hp : p ∈ a) : p ∈ b := by
  simpa using List.all_eq_true.mp h p hp

theorem Piece.same_refl (p : Piece) (s : State) : p.same s s := by
  cases p <;> first | rfl | exact ⟨rfl, rfl⟩ | exact fun _ => rfl

theorem Piece.same_trans {p : Piece} {s t u : State} (h : p.same s t) (g : p.same t u) : p.same s u := by
  cases p <;>
    first
    | exact Eq.trans g h
    | exact ⟨g.1.trans h.1, g.2.trans h.2⟩
    | exact fun i => (g i).trans (h i)

/-- Records that show the same fields, with no rewrite. -/
theorem RewrittenOrNoted.still {id : RecordId} {s t : State} (hv : t.view id = s.view id ∨ id ∈ t.changed)
    (hc : t.counts = s.counts) : RewrittenOrNoted id s t :=
  ⟨0, by cases id <;> simp [State.changeCount, hc], fun _ => hv, fun h => absurd rfl h⟩

theorem RewrittenOrNoted.trans {id : RecordId} {s t u : State} (h : RewrittenOrNoted id s t)
    (g : RewrittenOrNoted id t u) (hn : ∀ x ∈ t.changed, x ∈ u.changed) (hf : FlagsStay t u) :
    RewrittenOrNoted id s u := by
  obtain ⟨n, hc, hv, hg⟩ := h
  obtain ⟨m, gc, gv, gg⟩ := g
  refine ⟨n + m, ?_, fun h0 => ?_, fun h0 => ?_⟩
  · rw [gc, hc, Nat.mul_add, BitVec.ofNat_add, BitVec.add_assoc]
  · obtain ⟨rfl, rfl⟩ : n = 0 ∧ m = 0 := by omega
    rcases gv rfl with h1 | h1
    · rcases hv rfl with h2 | h2
      · exact .inl (h1.trans h2)
      · exact .inr (hn _ h2)
    · exact .inr h1
  · rcases Nat.eq_zero_or_pos m with rfl | hm
    · exact hf _ (hg (by omega))
    · exact gg (by omega)

theorem Touches.refl (touched : List Piece) (s : State) : Touches touched s s where
  same p _ := p.same_refl s
  settled _ h := h
  cards _ := .inl rfl
  memory _ _ := rfl
  flags _ h := h
  memoryOk h := h
  noted _ h := h
  once h := h
  rejoins h := h
  rewrites _ _ := .still (.inl rfl) rfl

theorem Touches.trans {touched : List Piece} {s t u : State} (h : Touches touched s t)
    (g : Touches touched t u) : Touches touched s u where
  same p hp := Piece.same_trans (h.same p hp) (g.same p hp)
  settled c hc := g.settled c (h.settled c hc)
  cards c := by
    rcases g.cards c with hg | hg
    · rcases h.cards c with hh | hh
      · exact .inl (hg.trans hh)
      · exact .inr (g.settled c hh)
    · exact .inr hg
  memory a ha :=
    (g.memory a ha).trans (h.memory a fun c hc hs => ha c hc (g.settled c hs))
  flags f hf := g.flags f (h.flags f hf)
  memoryOk hm := g.memoryOk (h.memoryOk hm)
  noted id hi := g.noted id (h.noted id hi)
  once ho := g.once (h.once ho)
  rejoins hr := g.rejoins (h.rejoins hr)
  rewrites id hi := (h.rewrites id hi).trans (g.rewrites id hi) g.noted g.flags

theorem Touches.mono {a b : List Piece} {s t : State} (h : Touches a s t) (hab : within a b = true) :
    Touches b s t where
  same p hp := h.same p fun hpa => hp (within_mem hab hpa)
  settled := h.settled
  cards := h.cards
  memory := h.memory
  flags := h.flags
  memoryOk := h.memoryOk
  noted := h.noted
  once := h.once
  rejoins := h.rejoins
  rewrites := h.rewrites

/-- An operation after what has been done so far. -/
theorem Touches.after {a b : List Piece} {s t u : State} (g : Touches b t u) (hb : within b a = true)
    (h : Touches a s t) : Touches a s u := h.trans (g.mono hb)

/-- What an operation that keeps more leaves in place, in a longer list. -/
theorem Keeps.touches {a b : List Piece} {s t : State} (h : Keeps a s t) (hab : within a b = true) :
    Touches b s t := h.toTouches.mono hab

theorem Keeps.refl (touched : List Piece) (s : State) : Keeps touched s s := ⟨.refl _ _, fun h => h⟩

theorem Keeps.trans {touched : List Piece} {s t u : State} (h : Keeps touched s t) (g : Keeps touched t u) :
    Keeps touched s u := ⟨h.toTouches.trans g.toTouches, fun hi => g.images (h.images hi)⟩

theorem Keeps.mono {a b : List Piece} {s t : State} (h : Keeps a s t) (hab : within a b = true) :
    Keeps b s t := ⟨h.touches hab, h.images⟩

/-- An operation after what has been done so far. -/
theorem Keeps.after {a b : List Piece} {s t u : State} (g : Keeps b t u) (hb : within b a = true)
    (h : Keeps a s t) : Keeps a s u := h.trans (g.mono hb)

theorem Touches.forList {α : Type} {touched : List Piece} {l : List α} {f : α → State → State} {s : State}
    (h : ∀ i t, Touches touched t (f i t)) : Touches touched s (Machine.forList l f s) := by
  induction l generalizing s with
  | nil => exact Touches.refl _ _
  | cons i rest ih => exact (h i s).trans ih

theorem Touches.forEach {n : Nat} {touched : List Piece} {f : Fin n → State → State} {s : State}
    (h : ∀ i t, Touches touched t (f i t)) : Touches touched s (Machine.forEach n f s) :=
  Touches.forList (l := List.finRange n) h

theorem Keeps.forList {α : Type} {touched : List Piece} {l : List α} {f : α → State → State} {s : State}
    (h : ∀ i t, Keeps touched t (f i t)) : Keeps touched s (forList l f s) := by
  induction l generalizing s with
  | nil => exact Keeps.refl _ _
  | cons i rest ih => exact (h i s).trans ih

theorem Keeps.forEach {n : Nat} {touched : List Piece} {f : Fin n → State → State} {s : State}
    (h : ∀ i t, Keeps touched t (f i t)) : Keeps touched s (forEach n f s) :=
  Keeps.forList (l := List.finRange n) h

/-- An operation after what has been done so far, for every element of a list. -/
theorem Keeps.afterForList {α : Type} {a : List Piece} {l : List α} {f : α → State → State} {s t : State}
    (h : Keeps a s t) (g : ∀ i u, Keeps a u (f i u)) :
    Keeps a s (Machine.forList l f t) := h.trans (Keeps.forList g)

theorem Keeps.afterForEach {n : Nat} {a : List Piece} {f : Fin n → State → State} {s t : State}
    (h : Keeps a s t) (g : ∀ i u, Keeps a u (f i u)) :
    Keeps a s (Machine.forEach n f t) := h.trans (Keeps.forEach g)

/-- An operation that leaves cards, memory, flags and records alone. -/
theorem Touches.quiet {touched : List Piece} {s t : State} (h : SameBut touched s t)
    (hc : t.cards.shadow = s.cards.shadow) (hm : t.mem = s.mem) (ha : t.attention = s.attention)
    (hn : t.changed = s.changed := by rfl) (ht : t.counts = s.counts := by rfl)
    (hv : ∀ id, id.isOwned → t.view id = s.view id := by
      intro id hid; cases id <;> first | rfl | exact absurd rfl (hid _))
    (ho : s.listOnce → t.listOnce := by exact fun h => h)
    (hr : s.rejoinsLost → t.rejoinsLost := by exact fun h => h) : Touches touched s t where
  same := h
  settled c := by simp [State.settled, State.hasEnded, State.isPostedAction, State.cardState, hc]
  cards c := .inl (by simp [State.cardState, hc])
  memory a _ := by rw [hm]
  flags f := by simp [State.hasFlag, ha]
  memoryOk := by simp [State.memoryOk, hm]
  noted _ := by simp [hn]
  once := ho
  rejoins := hr
  rewrites id hid := .still (.inl (hv id hid)) ht

theorem Keeps.quiet {touched : List Piece} {s t : State} (h : SameBut touched s t)
    (hc : t.cards.shadow = s.cards.shadow) (hm : t.mem = s.mem) (ha : t.attention = s.attention)
    (hn : t.changed = s.changed := by rfl) (ht : t.counts = s.counts := by rfl)
    (hv : ∀ id, id.isOwned → t.view id = s.view id := by
      intro id hid; cases id <;> first | rfl | exact absurd rfl (hid _))
    (ho : s.listOnce → t.listOnce := by exact fun h => h)
    (hr : s.rejoinsLost → t.rejoinsLost := by exact fun h => h)
    (hi : s.imagesFollow → t.imagesFollow := by exact fun h => h) : Keeps touched s t :=
  ⟨.quiet h hc hm ha hn ht hv ho hr, hi⟩

theorem noteChanged_view (ids : List RecordId) (s t : State) (id : RecordId) :
    (noteChanged ids s t).view id = t.view id := by
  cases id <;> rfl

/-- An operation that replaces records and notes those that then show other fields; it leaves cards, memory
and flags alone. -/
theorem Touches.noting {touched : List Piece} {ids : List RecordId} {s t : State}
    (h : SameBut touched s (noteChanged ids s t)) (hc : t.cards.shadow = s.cards.shadow)
    (hm : t.mem = s.mem) (ha : t.attention = s.attention) (ht : t.counts = s.counts)
    (hv : ∀ id, id ∉ ids → t.view id = s.view id)
    (ho : s.listOnce → t.listOnce := by exact fun h => h)
    (hr : s.rejoinsLost → t.rejoinsLost := by exact fun h => h) :
    Touches touched s (noteChanged ids s t) where
  same := h
  settled c := by
    simp [State.settled, State.hasEnded, State.isPostedAction, State.cardState, noteChanged, hc]
  cards c := .inl (by simp [State.cardState, noteChanged, hc])
  memory a _ := by simp [noteChanged, hm]
  flags f := by simp [State.hasFlag, noteChanged, ha]
  memoryOk := by simp [State.memoryOk, noteChanged, hm]
  noted _ h := by simp [noteChanged, h]
  once := ho
  rejoins := hr
  rewrites id _ := by
    refine .still ?_ ht
    rw [noteChanged_view]
    by_cases hi : id ∈ ids
    · by_cases he : t.view id = s.view id
      · exact .inl he
      · exact .inr (by simp [noteChanged, hi, he])
    · exact .inl (hv id hi)

theorem Keeps.noting {touched : List Piece} {ids : List RecordId} {s t : State}
    (h : SameBut touched s (noteChanged ids s t)) (hc : t.cards.shadow = s.cards.shadow)
    (hm : t.mem = s.mem) (ha : t.attention = s.attention) (ht : t.counts = s.counts)
    (hv : ∀ id, id ∉ ids → t.view id = s.view id)
    (ho : s.listOnce → t.listOnce := by exact fun h => h)
    (hr : s.rejoinsLost → t.rejoinsLost := by exact fun h => h)
    (hi : s.imagesFollow → t.imagesFollow := by exact fun h => h) :
    Keeps touched s (noteChanged ids s t) := ⟨.noting h hc hm ha ht hv ho hr, hi⟩

/-! ### What composition reads -/

/-- A station's image reads the tables and the contributions of the records the station serves (R36). -/
theorem composeImage_congr {s t : State} {i : Fin 48} (ht : t.tables = s.tables)
    (hr : ∀ r ∈ s.rampsOn i, t.ramps[r].valves = s.ramps[r].valves)
    (hp : ∀ p ∈ s.packsOn i, t.packs[p].pumpRun = s.packs[p].pumpRun)
    (hd : ∀ d ∈ s.doorsOn i, t.doors[d].outputs = s.doors[d].outputs)
    (hz : ∀ z ∈ s.zonesCalling i, t.channels[z].contribution = s.channels[z].contribution) :
    composeImage t i = composeImage s i := by
  have er : t.rampsOn i = s.rampsOn i := by simp only [State.rampsOn, State.rampEntry, ht]
  have ep : t.packsOn i = s.packsOn i := by simp only [State.packsOn, ht]
  have ed : t.doorsOn i = s.doorsOn i := by simp only [State.doorsOn, State.doorEntry, ht]
  have ez : t.zonesCalling i = s.zonesCalling i := by simp only [State.zonesCalling, ht]
  have hdoor : doorImage t i = doorImage s i := by
    unfold doorImage
    rw [ed]
    refine List.foldl_ext _ _ _ fun image d hm => ?_
    have e : t.doorEntry d = s.doorEntry d := by simp only [State.doorEntry, ht]
    rw [e, hd d hm]
  unfold composeImage
  rw [show t.stationKind i = s.stationKind i by simp only [State.stationKind, ht], er, ep, ez, hdoor]
  cases hk : s.stationKind i <;> try rfl
  · cases hl : s.rampsOn i with
    | nil => rfl
    | cons r rest =>
      have e := hr r (by simp [hl])
      simp only [e]
  · cases hl : s.packsOn i with
    | nil => rfl
    | cons p rest => simp only [hp p (by simp [hl])]
  · cases hl : s.zonesCalling i with
    | nil => rfl
    | cons z rest =>
      have e := hz z (by simp [hl])
      simp only [e]

/-- The images follow over a change of no contribution and no image. -/
theorem imagesFollow_same {s t : State} (ht : t.tables = s.tables := by rfl)
    (hr : ∀ r : Fin 4, t.ramps[r].valves = s.ramps[r].valves := by exact fun _ => rfl)
    (hp : ∀ p : Fin 2, t.packs[p].pumpRun = s.packs[p].pumpRun := by exact fun _ => rfl)
    (hd : ∀ d : Fin 32, t.doors[d].outputs = s.doors[d].outputs := by exact fun _ => rfl)
    (hz : ∀ z : Fin 8, t.channels[z].contribution = s.channels[z].contribution := by exact fun _ => rfl)
    (hi : ∀ i : Fin 48, t.stations[i].image = s.stations[i].image := by exact fun _ => rfl)
    (h : s.imagesFollow) : t.imagesFollow := fun i =>
  (hi i).trans ((h i).trans (composeImage_congr ht (fun r _ => hr r) (fun p _ => hp p) (fun d _ => hd d)
    (fun z _ => hz z)).symm)

/-- One element of a vector replaced by another of which a field is the same. -/
theorem Vector.field_set {α β : Type} {n : Nat} {v : Vector α n} {i : Fin n} {x : α} (f : α → β)
    (h : f x = f v[i]) (j : Fin n) : f (v.set i x)[j] = f v[j] := by
  by_cases e : i = j
  · subst e
    rw [show (v.set i x)[i] = x from Vector.getElem_set_self ..]
    exact h
  · rw [show (v.set i x)[j] = v[j] from Vector.getElem_set_ne _ _ fun h' => e (Fin.ext h')]

/-! ### Named updates -/

theorem setPack_touches (p : Fin 2) (r : PackRecord) (s : State) : Touches [.packs] s (setPack p r s) :=
  .noting (fun p hp => by cases p <;> first | (refine absurd ?_ hp; decide) | exact rfl | exact ⟨rfl, rfl⟩ | exact fun _ => rfl)
    rfl rfl rfl rfl (fun id hi => by
      cases id <;> first
        | rfl
        | (rename_i j
           have e : (s.packs.set p r)[j] = s.packs[j] :=
             Vector.getElem_set_ne _ _ (by simpa [Fin.ext_iff, eq_comm] using hi)
           simp only [State.view, e]))

theorem setPack_keeps (p : Fin 2) (r : PackRecord) (s : State)
    (h : r.pumpRun = s.packs[p].pumpRun) : Keeps [.packs] s (setPack p r s) :=
  ⟨setPack_touches p r s, imagesFollow_same (hp := Vector.field_set PackRecord.pumpRun h)⟩

theorem setRamp_touches (i : Fin 4) (r : RampRecord) (s : State) : Touches [.ramps] s (setRamp i r s) :=
  .noting (fun p hp => by cases p <;> first | (refine absurd ?_ hp; decide) | exact rfl | exact ⟨rfl, rfl⟩ | exact fun _ => rfl)
    rfl rfl rfl rfl (fun id hi => by
      cases id <;> first
        | rfl
        | (rename_i j
           have e : (s.ramps.set i r)[j] = s.ramps[j] :=
             Vector.getElem_set_ne _ _ (by simpa [Fin.ext_iff, eq_comm] using hi)
           simp only [State.view, e]))

theorem setRamp_keeps (i : Fin 4) (r : RampRecord) (s : State)
    (h : r.valves = s.ramps[i].valves) : Keeps [.ramps] s (setRamp i r s) :=
  ⟨setRamp_touches i r s, imagesFollow_same (hr := Vector.field_set RampRecord.valves h)⟩

theorem putDoor_touches (d : Fin 32) (r : DoorRecord) (s : State) : Touches [.doors] s (putDoor d r s) :=
  .noting (fun p hp => by cases p <;> first | (refine absurd ?_ hp; decide) | exact rfl | exact ⟨rfl, rfl⟩ | exact fun _ => rfl)
    rfl rfl rfl rfl (fun id hi => by
      cases id <;> first
        | rfl
        | (rename_i j
           have e : (s.doors.set d r)[j] = s.doors[j] :=
             Vector.getElem_set_ne _ _ (by simpa [Fin.ext_iff, eq_comm] using hi)
           simp only [State.view, e]))

theorem putDoor_keeps (d : Fin 32) (r : DoorRecord) (s : State)
    (h : r.outputs = s.doors[d].outputs) : Keeps [.doors] s (putDoor d r s) :=
  ⟨putDoor_touches d r s, imagesFollow_same (hd := Vector.field_set DoorRecord.outputs h)⟩

theorem setZone_keeps (z : Fin 8) (r : ZoneRecord) (s : State) : Keeps [.zones] s (setZone z r s) :=
  .noting (fun p hp => by cases p <;> first | (refine absurd ?_ hp; decide) | exact rfl | exact ⟨rfl, rfl⟩ | exact fun _ => rfl)
    rfl rfl rfl rfl (fun id hi => by
      cases id <;> first
        | rfl
        | (rename_i j
           have e : (s.zones.set z r)[j] = s.zones[j] :=
             Vector.getElem_set_ne _ _ (by simpa [Fin.ext_iff, eq_comm] using hi)
           simp only [State.view, e]))

theorem setSlot_keeps (i : Fin 16) (r : SlotRecord) (s : State) : Keeps [.slots] s (setSlot i r s) :=
  .noting (fun p hp => by cases p <;> first | (refine absurd ?_ hp; decide) | exact rfl | exact ⟨rfl, rfl⟩ | exact fun _ => rfl)
    rfl rfl rfl rfl (fun id hi => by
      cases id <;> first
        | rfl
        | (rename_i n
           have e : (s.slots.set i r)[n] = s.slots[n] :=
             Vector.getElem_set_ne _ _ (by simpa [Fin.ext_iff, eq_comm] using hi)
           simp only [State.view, State.slotView, e]
           rfl))

/-- A channel is shown by the slot that holds it alone. -/
theorem channelWord_setChannel (z : Fin 8) (r : ChannelRecord) (s : State) (n : Fin 16) (y : Fin 8)
    (ho : s.channels[z].holder ≠ some n) (hr : r.holder ≠ some n) :
    channelWord { s with channels := s.channels.set z r } n y = channelWord s n y := by
  by_cases h : z = y
  · subst h
    have e : (s.channels.set z r)[z] = r := Vector.getElem_set_self ..
    simp only [channelWord, e, ho, hr, if_false]
  · have e : (s.channels.set z r)[y] = s.channels[y] :=
      Vector.getElem_set_ne _ _ fun h' => h (Fin.ext h')
    simp only [channelWord, e]

theorem setChannel_touches (z : Fin 8) (r : ChannelRecord) (s : State) :
    Touches [.channels] s (setChannel z r s) :=
  .noting (fun p hp => by cases p <;> first | (refine absurd ?_ hp; decide) | exact rfl | exact ⟨rfl, rfl⟩ | exact fun _ => rfl)
    rfl rfl rfl rfl (fun id hi => by
      cases id <;> first
        | rfl
        | (rename_i n
           have hn : ∀ y, channelWord { s with channels := s.channels.set z r } n y = channelWord s n y :=
             fun y => channelWord_setChannel z r s n y
               (fun h => hi (List.mem_map.2 ⟨n, by simp only [h]; simp, rfl⟩))
               (fun h => hi (List.mem_map.2 ⟨n, by simp only [h]; simp, rfl⟩))
           simp only [State.view, State.slotView, funext hn]))

theorem setChannel_keeps (z : Fin 8) (r : ChannelRecord) (s : State)
    (h : r.contribution = s.channels[z].contribution) : Keeps [.channels] s (setChannel z r s) :=
  ⟨setChannel_touches z r s, imagesFollow_same (hz := Vector.field_set ChannelRecord.contribution h)⟩

theorem setWatch_keeps (k : Fin 8) (r : WatchRecord) (s : State) : Keeps [.watch] s (setWatch k r s) :=
  .quiet (fun p hp => by cases p <;> first | (refine absurd ?_ hp; decide) | exact rfl | exact ⟨rfl, rfl⟩ | exact fun _ => rfl) rfl rfl rfl

theorem setRelation_keeps (p : Fin 2) (r : PackRelation) (s : State) :
    Keeps [.doorUnit] s (setRelation p r s) :=
  .quiet (fun p hp => by cases p <;> first | (refine absurd ?_ hp; decide) | exact rfl | exact ⟨rfl, rfl⟩ | exact fun _ => rfl) rfl rfl rfl

theorem setRampStowed_keeps (r : Fin 4) (b : Bool) (s : State) :
    Keeps [.doorUnit] s (setRampStowed r b s) :=
  .quiet (fun p hp => by cases p <;> first | (refine absurd ?_ hp; decide) | exact rfl | exact ⟨rfl, rfl⟩ | exact fun _ => rfl) rfl rfl rfl

theorem advanceDoorArrival_keeps (s : State) : Keeps [.doorUnit] s (advanceDoorArrival s) :=
  .quiet (fun p hp => by cases p <;> first | (refine absurd ?_ hp; decide) | exact rfl | exact ⟨rfl, rfl⟩ | exact fun _ => rfl) rfl rfl rfl

theorem setZoneCopy_keeps (z : Fin 8) (st : ZoneState) (s : State) :
    Keeps [.callUnit] s (setZoneCopy z st s) :=
  .quiet (fun p hp => by cases p <;> first | (refine absurd ?_ hp; decide) | exact rfl | exact ⟨rfl, rfl⟩ | exact fun _ => rfl) rfl rfl rfl

theorem handOver_keeps (h : Handover) (s : State) : Keeps [.handovers] s (handOver h s) :=
  .quiet (fun p hp => by cases p <;> first | (refine absurd ?_ hp; decide) | exact rfl | exact ⟨rfl, rfl⟩ | exact fun _ => rfl) rfl rfl rfl

theorem dropHandover_keeps (h : Handover) (s : State) : Keeps [.handovers] s (dropHandover h s) :=
  .quiet (fun p hp => by cases p <;> first | (refine absurd ?_ hp; decide) | exact rfl | exact ⟨rfl, rfl⟩ | exact fun _ => rfl) rfl rfl rfl

theorem dropPreemption_keeps (p : Fin 2) (s : State) : Keeps [.handovers] s (dropPreemption p s) :=
  .quiet (fun p hp => by cases p <;> first | (refine absurd ?_ hp; decide) | exact rfl | exact ⟨rfl, rfl⟩ | exact fun _ => rfl) rfl rfl rfl

theorem advanceClock_keeps (n : Clock) (s : State) : Keeps [.clock] s (advanceClock n s) :=
  .quiet (fun p hp => by cases p <;> first | (refine absurd ?_ hp; decide) | exact rfl | exact ⟨rfl, rfl⟩ | exact fun _ => rfl) rfl rfl rfl

theorem appendIntake_keeps (c : CardId) (s : State) : Keeps [.intake] s (appendIntake c s) :=
  .quiet (fun p hp => by cases p <;> first | (refine absurd ?_ hp; decide) | exact rfl | exact ⟨rfl, rfl⟩ | exact fun _ => rfl) rfl rfl rfl

theorem removeIntake_keeps (c : CardId) (s : State) : Keeps [.intake] s (removeIntake c s) :=
  .quiet (fun p hp => by cases p <;> first | (refine absurd ?_ hp; decide) | exact rfl | exact ⟨rfl, rfl⟩ | exact fun _ => rfl) rfl rfl rfl

theorem clockReaches_keeps (start : Clock) (n : Nat) (s : State) :
    Keeps [.clock] s (clockReaches start n s) := by
  unfold clockReaches
  split
  · exact .quiet (fun p hp => by cases p <;> first | (refine absurd ?_ hp; decide) | exact rfl | exact ⟨rfl, rfl⟩ | exact fun _ => rfl) rfl rfl rfl
  · exact .refl _ _

theorem atExpiry_keeps (t : RunningTimer) (s : State) : Keeps [.clock] s (atExpiry t s) :=
  clockReaches_keeps _ _ _

/-- A flag set is a flag set; the others stay as they are. -/
theorem hasFlag_raiseFlag (f g : Flag) (s : State) :
    (raiseFlag f s).hasFlag g = (s.hasFlag g || decide (f = g)) := by
  cases f <;> cases g <;>
    simp [raiseFlag, State.hasFlag, Flag.mask, Flag.bit]

theorem raiseFlag_keeps (f : Flag) (s : State) : Keeps [.attention] s (raiseFlag f s) where
  same p hp := by cases p <;> first | (refine absurd ?_ hp; decide) | exact rfl | exact ⟨rfl, rfl⟩ | exact fun _ => rfl
  settled _ h := h
  cards _ := .inl rfl
  memory _ _ := rfl
  flags g hg := by simp [hasFlag_raiseFlag, hg]
  memoryOk h := h
  noted _ h := h
  once h := h
  rejoins h := h
  rewrites id _ := .still (.inl (by cases id <;> rfl)) rfl
  images h := h

/-! ### Stations and the line -/

/-- Another record of one station: every other record shows the same. -/
theorem setStation_view (i : Fin 48) (r : StationRecord) (s : State) (id : RecordId)
    (hi : id ∉ [RecordId.station i]) :
    State.view { s with stations := s.stations.set i r } id = s.view id := by
  cases id <;> first
    | rfl
    | (rename_i j
       have e : (s.stations.set i r)[j] = s.stations[j] :=
         Vector.getElem_set_ne _ _ (by simpa [Fin.ext_iff, eq_comm] using hi)
       simp only [State.view, e])

/-- A rejoin is pending at LOST stations alone over another record of one station that has it so. -/
theorem setStation_rejoins {i : Fin 48} {r : StationRecord} {s : State}
    (hr : s.rejoinsLost → r.rejoinPending = true → r.state = .lost) (h : s.rejoinsLost) :
    State.rejoinsLost { s with stations := s.stations.set i r } := by
  intro j
  change (setStation i r s).stations[j].rejoinPending = true → (setStation i r s).stations[j].state = .lost
  rw [setStation_get]
  split
  · exact hr h
  · exact h j

/-- A station record replaced by one with the same image and sequence number. -/
theorem setStation_keeps (i : Fin 48) (r : StationRecord) (s : State) (hi : r.image = s.stations[i].image)
    (hq : r.sequence = s.stations[i].sequence)
    (hr : s.rejoinsLost → r.rejoinPending = true → r.state = .lost) :
    Keeps [.stationRest] s (setStation i r s) :=
  .noting
    (fun p hp => by
      cases p <;>
        first
        | (refine absurd ?_ hp; decide)
        | exact rfl
        | exact ⟨rfl, rfl⟩
        | (intro j
           first
             | change (setStation i _ s).stations[j].image = _
             | change (setStation i _ s).stations[j].sequence = _
           rw [setStation_get]
           split
           · rename_i h; subst h; first | exact hi | exact hq
           · rfl))
    rfl rfl rfl rfl (setStation_view _ _ _) (hr := setStation_rejoins hr)
    (hi := imagesFollow_same (hi := Vector.field_set StationRecord.image hi))

/-- A station record with another image. -/
theorem setImage_touches (i : Fin 48) (image : BitVec 32) (s : State) :
    Touches [.stationImages] s (setStation i { s.stations[i] with image := image } s) :=
  .noting
    (fun p hp => by
      cases p <;>
        first
        | (refine absurd ?_ hp; decide)
        | exact rfl
        | exact ⟨rfl, rfl⟩
        | (intro j
           first
             | change (setStation i _ s).stations[j].image = _
             | change (setStation i _ s).stations[j].sequence = _
             | change (setStation i _ s).stations[j].rest = _
           rw [setStation_get]
           split
           · rename_i h; subst h; rfl
           · rfl))
    rfl rfl rfl rfl (setStation_view _ _ _) (hr := setStation_rejoins fun h => h i)

/-- A station record with another sequence number. -/
theorem setSequence_keeps (i : Fin 48) (n : Byte) (s : State) :
    Keeps [.stationSequences] s (setStation i { s.stations[i] with sequence := n } s) :=
  .noting
    (fun p hp => by
      cases p <;>
        first
        | (refine absurd ?_ hp; decide)
        | exact rfl
        | exact ⟨rfl, rfl⟩
        | (intro j
           first
             | change (setStation i _ s).stations[j].image = _
             | change (setStation i _ s).stations[j].sequence = _
             | change (setStation i _ s).stations[j].rest = _
           rw [setStation_get]
           split
           · rename_i h; subst h; rfl
           · rfl))
    rfl rfl rfl rfl (setStation_view _ _ _) (hr := setStation_rejoins fun h => h i)
    (hi := imagesFollow_same (hi := Vector.field_set StationRecord.image rfl))

/-- A line with another course and the same lists. -/
theorem setCourse_keeps (l : Line) (s : State) (hp : l.pending = s.line.pending)
    (ho : l.owed = s.line.owed) : Keeps [.lineCourse] s (setLine l s) :=
  .quiet
    (fun p h => by cases p <;> first | (refine absurd ?_ h; decide) | exact ⟨hp, ho⟩ | exact rfl | exact fun _ => rfl)
    rfl rfl rfl (ho := fun h => (congrArg (fun x => (x.map (·.station)).Nodup) hp).mpr h)

/-- A line with other lists and the same course. -/
theorem setLists_keeps (l : Line) (s : State) (hc : l.course = s.line.course)
    (ho : s.listOnce → (l.pending.map (·.station)).Nodup) : Keeps [.lineList] s (setLine l s) :=
  .quiet
    (fun p h => by cases p <;> first | (refine absurd ?_ h; decide) | exact hc | exact rfl | exact ⟨rfl, rfl⟩ | exact fun _ => rfl)
    rfl rfl rfl (ho := ho)

theorem setLine_keeps (l : Line) (s : State) (ho : s.listOnce → (l.pending.map (·.station)).Nodup) :
    Keeps [.lineList, .lineCourse] s (setLine l s) :=
  .quiet
    (fun p h => by cases p <;> first | (refine absurd ?_ h; decide) | exact rfl | exact ⟨rfl, rfl⟩ | exact fun _ => rfl)
    rfl rfl rfl (ho := ho)

/-! ### Cards -/

theorem cardState_setCardState (c d : CardId) (st : CardState) (s : State) :
    (setCardState c st s).cardState d = if c = d then st else s.cardState d := by
  simp [State.cardState, setCardState, Vector.getElem_set, Fin.ext_iff]

/-- The words of memory after a card has ended. -/
theorem endCardAs_mem (c : CardId) (o : OrderOutcome) (detail : Nat) (st : CardState) (s : State) :
    (endCardAs c o detail st s).mem =
      ((((s.mem.write (cardAddress c 12) (BitVec.ofNat 16 o.code)).write (cardAddress c 13)
        (BitVec.ofNat 16 detail)).write (cardAddress c 14) (s.clock.setWidth 16)).write
        (cardAddress c 15) ((s.clock >>> 16).setWidth 16)) := rfl

theorem endCardAs_cardState (c d : CardId) (o : OrderOutcome) (detail : Nat) (st : CardState) (s : State) :
    (endCardAs c o detail st s).cardState d = if c = d then st else s.cardState d :=
  cardState_setCardState c d st s

theorem endCardAs_hasFlag (c : CardId) (o : OrderOutcome) (detail : Nat) (st : CardState) (s : State)
    (f : Flag) : (endCardAs c o detail st s).hasFlag f = (s.hasFlag f || decide (Flag.orders = f)) := by
  unfold endCardAs
  rw [hasFlag_raiseFlag]
  rfl

theorem endCardAs_memoryOk (c : CardId) (o : OrderOutcome) (detail : Nat) (st : CardState) (s : State)
    (h : s.memoryOk = true) : (endCardAs c o detail st s).memoryOk = true := by
  have step : ∀ (k : Nat) (v : Word) (t : State), 0 < k → k < 16 → t.memoryOk = true →
      (writeWord (cardAddress c k) v t).memoryOk = true := fun k v t h0 hk ht =>
    State.memoryOk_writeWord v (isView_cardAddress c h0 hk).2 (isView_cardAddress c h0 hk).1 ht
  have all := step 15 ((s.clock >>> 16).setWidth 16) _ (by omega) (by omega)
    (step 14 (s.clock.setWidth 16) _ (by omega) (by omega)
      (step 13 (BitVec.ofNat 16 detail) _ (by omega) (by omega)
        (step 12 (BitVec.ofNat 16 o.code) _ (by omega) (by omega) h)))
  simpa only [State.memoryOk, endCardAs_mem, writeWord_mem] using all

theorem endCardAs_read (c : CardId) (o : OrderOutcome) (detail : Nat) (st : CardState) (s : State) {a : Nat}
    (ha : ¬ isOutcomeWord c a) : (endCardAs c o detail st s).mem.read a = s.mem.read a := by
  have hne : ∀ k, 12 ≤ k → k ≤ 15 → a ≠ cardAddress c k := fun k h1 h2 h => ha ⟨k, h1, h2, h⟩
  rw [endCardAs_mem, Memory.read_write_ne _ _ (hne 15 (by omega) (by omega)),
    Memory.read_write_ne _ _ (hne 14 (by omega) (by omega)),
    Memory.read_write_ne _ _ (hne 13 (by omega) (by omega)),
    Memory.read_write_ne _ _ (hne 12 (by omega) (by omega))]

@[simp] theorem endCardAs_pending (c : CardId) (o : OrderOutcome) (n : Nat) (st : CardState) (s : State) :
    (endCardAs c o n st s).pending = s.pending := by simp [endCardAs]
@[simp] theorem endCardAs_clock (c : CardId) (o : OrderOutcome) (n : Nat) (st : CardState) (s : State) :
    (endCardAs c o n st s).clock = s.clock := by simp [endCardAs]
@[simp] theorem endCardAs_pins (c : CardId) (o : OrderOutcome) (n : Nat) (st : CardState) (s : State) :
    (endCardAs c o n st s).pins = s.pins := by simp [endCardAs]
@[simp] theorem endCardAs_part (c : CardId) (o : OrderOutcome) (n : Nat) (st : CardState) (s : State) :
    (endCardAs c o n st s).part = s.part := by simp [endCardAs]
@[simp] theorem endCardAs_enables (c : CardId) (o : OrderOutcome) (n : Nat) (st : CardState) (s : State) :
    (endCardAs c o n st s).enables = s.enables := by simp [endCardAs]
@[simp] theorem endCardAs_misuse (c : CardId) (o : OrderOutcome) (n : Nat) (st : CardState) (s : State) :
    (endCardAs c o n st s).misuse = s.misuse := by simp [endCardAs]
@[simp] theorem endCardAs_tables (c : CardId) (o : OrderOutcome) (n : Nat) (st : CardState) (s : State) :
    (endCardAs c o n st s).tables = s.tables := by simp [endCardAs]
@[simp] theorem endCardAs_line (c : CardId) (o : OrderOutcome) (n : Nat) (st : CardState) (s : State) :
    (endCardAs c o n st s).line = s.line := by simp [endCardAs]
@[simp] theorem endCardAs_stations (c : CardId) (o : OrderOutcome) (n : Nat) (st : CardState) (s : State) :
    (endCardAs c o n st s).stations = s.stations := by simp [endCardAs]
@[simp] theorem endCardAs_packs (c : CardId) (o : OrderOutcome) (n : Nat) (st : CardState) (s : State) :
    (endCardAs c o n st s).packs = s.packs := by simp [endCardAs]
@[simp] theorem endCardAs_ramps (c : CardId) (o : OrderOutcome) (n : Nat) (st : CardState) (s : State) :
    (endCardAs c o n st s).ramps = s.ramps := by simp [endCardAs]
@[simp] theorem endCardAs_doors (c : CardId) (o : OrderOutcome) (n : Nat) (st : CardState) (s : State) :
    (endCardAs c o n st s).doors = s.doors := by simp [endCardAs]
@[simp] theorem endCardAs_doorUnit (c : CardId) (o : OrderOutcome) (n : Nat) (st : CardState) (s : State) :
    (endCardAs c o n st s).doorUnit = s.doorUnit := by simp [endCardAs]
@[simp] theorem endCardAs_zones (c : CardId) (o : OrderOutcome) (n : Nat) (st : CardState) (s : State) :
    (endCardAs c o n st s).zones = s.zones := by simp [endCardAs]
@[simp] theorem endCardAs_slots (c : CardId) (o : OrderOutcome) (n : Nat) (st : CardState) (s : State) :
    (endCardAs c o n st s).slots = s.slots := by simp [endCardAs]
@[simp] theorem endCardAs_channels (c : CardId) (o : OrderOutcome) (n : Nat) (st : CardState) (s : State) :
    (endCardAs c o n st s).channels = s.channels := by simp [endCardAs]
@[simp] theorem endCardAs_callUnit (c : CardId) (o : OrderOutcome) (n : Nat) (st : CardState) (s : State) :
    (endCardAs c o n st s).callUnit = s.callUnit := by simp [endCardAs]
@[simp] theorem endCardAs_watch (c : CardId) (o : OrderOutcome) (n : Nat) (st : CardState) (s : State) :
    (endCardAs c o n st s).watch = s.watch := by simp [endCardAs]
@[simp] theorem endCardAs_counts (c : CardId) (o : OrderOutcome) (n : Nat) (st : CardState) (s : State) :
    (endCardAs c o n st s).counts = s.counts := by simp [endCardAs]
@[simp] theorem endCardAs_handovers (c : CardId) (o : OrderOutcome) (n : Nat) (st : CardState) (s : State) :
    (endCardAs c o n st s).handovers = s.handovers := by simp [endCardAs]
@[simp] theorem endCardAs_changed (c : CardId) (o : OrderOutcome) (n : Nat) (st : CardState) (s : State) :
    (endCardAs c o n st s).changed = s.changed := by simp [endCardAs]
@[simp] theorem endCardAs_cards (c : CardId) (o : OrderOutcome) (n : Nat) (st : CardState) (s : State) :
    (endCardAs c o n st s).cards =
      { s.cards with shadow := s.cards.shadow.set c st, completed := s.cards.completed + 1 } := by
  simp [endCardAs]

theorem endCardAs_sameBut (c : CardId) (o : OrderOutcome) (detail : Nat) (st : CardState) (s : State) :
    SameBut [.shadow, .completed, .mem, .attention] s (endCardAs c o detail st s) := by
  intro p hp
  cases p <;> first | (refine absurd ?_ hp; decide) | simp [Piece.same]

/-- No image record shows a card's words. -/
theorem endCardAs_view (c : CardId) (o : OrderOutcome) (n : Nat) (st : CardState) (s : State)
    (id : RecordId) : (endCardAs c o n st s).view id = s.view id := by
  have hw : channelWord (endCardAs c o n st s) = channelWord s := by
    funext i z; simp only [channelWord, endCardAs_channels]
  cases id <;> simp only [State.view, State.slotView, hw, endCardAs_stations, endCardAs_tables,
    endCardAs_packs, endCardAs_ramps, endCardAs_doors, endCardAs_zones, endCardAs_slots, endCardAs_watch]

theorem endCardAs_keeps (c : CardId) (o : OrderOutcome) (detail : Nat) (st : CardState) (s : State)
    (hst : st = .done ∨ st = .refused) :
    Keeps [.shadow, .completed, .mem, .attention] s (endCardAs c o detail st s) := by
  have ended : (endCardAs c o detail st s).hasEnded c := by
    simpa [State.hasEnded, endCardAs_cardState] using hst
  have other : ∀ d, c ≠ d → (endCardAs c o detail st s).cardState d = s.cardState d := by
    intro d hd
    simp [endCardAs_cardState, hd]
  refine ⟨⟨endCardAs_sameBut c o detail st s, ?_, ?_, ?_, ?_, endCardAs_memoryOk c o detail st s,
    fun id h => by simpa using h, fun h => by simpa [State.listOnce] using h,
    fun h => by simpa [State.rejoinsLost] using h, fun id _ => .still (.inl (endCardAs_view ..)) (by simp)⟩,
    imagesFollow_same (by simp) (by simp) (by simp) (by simp) (by simp) (by simp)⟩
  · intro d h
    rcases eq_or_ne c d with rfl | hne
    · exact .inl ended
    · simpa only [State.settled, State.hasEnded, State.isPostedAction, other d hne] using h
  · intro d
    rcases eq_or_ne c d with rfl | hne
    · exact .inr (.inl ended)
    · exact .inl (other d hne)
  · intro a ha
    exact endCardAs_read c o detail st s fun h => ha c h (.inl ended)
  · intro f hf
    rw [endCardAs_hasFlag, hf]
    rfl

theorem endState_ended (o : OrderOutcome) : o.endState = .done ∨ o.endState = .refused := by
  cases o <;> simp [OrderOutcome.endState]

theorem endCard_keeps (c : CardId) (o : OrderOutcome) (detail : Nat) (s : State) :
    Keeps [.shadow, .completed, .mem, .attention] s (endCard c o detail s) :=
  endCardAs_keeps c o detail _ s (endState_ended o)

theorem endCardOf_keeps (c : Option CardId) (o : OrderOutcome) (detail : Nat) (s : State) :
    Keeps [.shadow, .completed, .mem, .attention] s (endCardOf c o detail s) := by
  unfold endCardOf
  split
  · exact endCard_keeps _ _ _ _
  · exact .refl _ _

/-- The watch unit posts an action card. -/
theorem postAction_keeps (c : CardId) (s : State) (hc : isBoardCard c = false) :
    Keeps [.shadow] s (setCardState c .posted s) where
  same p hp := by cases p <;> first | (refine absurd ?_ hp; decide) | exact rfl | exact ⟨rfl, rfl⟩ | exact fun _ => rfl
  settled d h := by
    rcases eq_or_ne c d with rfl | hne
    · exact .inr ⟨hc, by simp [cardState_setCardState]⟩
    · simpa [State.settled, State.hasEnded, State.isPostedAction, cardState_setCardState, hne] using h
  cards d := by
    rcases eq_or_ne c d with rfl | hne
    · exact .inr (.inr ⟨hc, by simp [cardState_setCardState]⟩)
    · exact .inl (by simp [cardState_setCardState, hne])
  memory _ _ := rfl
  flags _ h := h
  memoryOk h := h
  noted _ h := h
  once h := h
  rejoins h := h
  rewrites id _ := .still (.inl (by cases id <;> rfl)) rfl
  images h := h

end Sys2Proof.Machine
end

