-- ==== Sys2Proof/Laws/KeepsRewrites.lean ====
section
/-! SUPPORT. What the rewrites of image records may touch, and what an event does for the records it changes:
each is rewritten at its end (`Keeps`, R186). -/

namespace Sys2Proof.Machine

-- One theorem at a time: many at once take much memory.
set_option Elab.async false

/-- No record of an owner shows more than the records, the stations' images and the tables. -/
theorem SameBut.view {touched : List Piece} {s t : State} (h : SameBut touched s t)
    (hd : [Piece.tables, .stationImages, .stationRest, .packs, .ramps, .doors, .zones, .slots, .channels].all
      (fun p => !touched.contains p) = true) {id : RecordId} (hid : id.isOwned) : t.view id = s.view id := by
  have same : ∀ p ∈ [Piece.tables, .stationImages, .stationRest, .packs, .ramps, .doors, .zones, .slots,
      .channels], p.same s t := fun p hp => h p (by simpa using List.all_eq_true.mp hd p hp)
  have hw (hc : t.channels = s.channels) : channelWord t = channelWord s := by
    funext n z; simp only [channelWord, hc]
  have ht : t.tables = s.tables := same .tables (by simp)
  cases id with
  | station i =>
    have hi : t.stations[i].image = s.stations[i].image := same .stationImages (by simp) i
    have hr : t.stations[i].rest = s.stations[i].rest := same .stationRest (by simp) i
    change StationRecord.view { t.stations[i].rest with image := t.stations[i].image } _ =
      StationRecord.view { s.stations[i].rest with image := s.stations[i].image } _
    rw [hi, hr, ht]
  | pack p =>
    have e : t.packs = s.packs := same .packs (by simp)
    simp only [State.view, e]
  | ramp r =>
    have e : t.ramps = s.ramps := same .ramps (by simp)
    simp only [State.view, e]
  | door d =>
    have e : t.doors = s.doors := same .doors (by simp)
    simp only [State.view, e, ht]
  | zone z =>
    have e : t.zones = s.zones := same .zones (by simp)
    simp only [State.view, e]
  | slot n =>
    have e : t.slots = s.slots := same .slots (by simp)
    simp only [State.view, State.slotView, e, hw (same .channels (by simp))]
  | watch k => exact absurd rfl (hid k)

/-- The counts after a rewrite. -/
theorem changeCount_rewrite (id x : RecordId) (s : State) :
    (rewrite id s).changeCount x = if id = x then s.changeCount x + 2 else s.changeCount x := by
  by_cases h : id = x
  · subst h
    cases id <;> simp [rewrite, State.changeCount, advanceCount]
  · rw [if_neg h]
    cases id <;> cases x <;>
      first
      | rfl
      | exact Vector.getElem_set_ne (Fin.isLt _) (Fin.isLt _) fun h' => h (congrArg _ (Fin.ext h'))

theorem rewrite_flag (id : RecordId) (s : State) : (rewrite id s).hasFlag id.flag = true := by
  simp [rewrite, hasFlag_raiseFlag]

theorem rewrite_keeps (id : RecordId) (s : State) : Keeps [.attention, .counts] s (rewrite id s) where
  same p hp := by
    cases p <;>
      first | (refine absurd ?_ hp; decide) | exact rfl | exact ⟨rfl, rfl⟩ | exact fun _ => rfl
  settled _ h := h
  cards _ := .inl rfl
  memory _ _ := rfl
  flags g hg := by
    have h := (raiseFlag_keeps id.flag { s with counts := advanceCount id s.counts }).flags g hg
    exact h
  memoryOk h := h
  noted _ h := h
  once h := h
  rejoins h := h
  rewrites x _ := by
    have hv : (rewrite id s).view x = s.view x := by cases x <;> rfl
    by_cases h : id = x
    · subst h
      exact ⟨1, by simp [changeCount_rewrite], fun h => absurd h (by decide), fun _ => rewrite_flag id s⟩
    · exact ⟨0, by simp [changeCount_rewrite, h], fun _ => .inl hv, fun h => absurd rfl h⟩
  images h := h

theorem postActionCard_keeps (k : Fin 8) (s : State) :
    Keeps [.shadow, .intake, .watch] s (postActionCard k s) := by
  dsimp only [postActionCard]
  split
  · rename_i n _
    have hb : isBoardCard (actionCard n) = false := by
      unfold isBoardCard actionCard
      exact decide_eq_false (by simp)
    split <;>
      first
      | exact .after (appendIntake_keeps ..) rfl (.after (postAction_keeps _ _ hb) rfl (.refl _ _))
      | exact .after (setWatch_keeps ..) rfl (.refl _ _)
  · exact .refl _ _

theorem countTrip_keeps (k : Fin 8) (act : Bool) (s : State) :
    Keeps [.shadow, .intake, .watch] s
      (countTrip k act s) := by
  dsimp only [countTrip]
  repeat'
    first
    | with_reducible apply Keeps.refl
    | ((with_reducible apply Keeps.after (setWatch_keeps ..)); rfl)
    | ((with_reducible apply Keeps.after (postActionCard_keeps ..)); rfl)
    | split

theorem tripChannel_keeps (k : Fin 8) (s : State) :
    Keeps [.shadow, .intake, .watch] s
      (tripChannel k s) := by
  dsimp only [tripChannel]
  repeat'
    first
    | with_reducible apply Keeps.refl
    | ((with_reducible apply Keeps.after (countTrip_keeps ..)); rfl)
    | ((with_reducible apply Keeps.after (setWatch_keeps ..)); rfl)
    | split

theorem evaluateChannel_keeps (k : Fin 8) (s : State) :
    Keeps [.shadow, .intake, .watch] s
      (evaluateChannel k s) := by
  dsimp only [evaluateChannel]
  repeat'
    first
    | with_reducible apply Keeps.refl
    | ((with_reducible apply Keeps.after (setWatch_keeps ..)); rfl)
    | ((with_reducible apply Keeps.after (tripChannel_keeps ..)); rfl)
    | split

theorem evaluateRecord_keeps (id : RecordId) (s : State) :
    Keeps [.shadow, .intake, .watch] s (evaluateRecord id s) := by
  unfold evaluateRecord
  refine .afterForEach (.refl _ _) fun k u => ?_
  split
  · exact .after (evaluateChannel_keeps ..) rfl (.refl _ _)
  · exact .refl _ _

theorem rewriteChannels_keeps (differs : Fin 8 → Bool) (s : State) :
    Keeps [.attention, .counts] s (rewriteChannels differs s) := by
  unfold rewriteChannels
  refine .afterForEach (.refl _ _) fun k u => ?_
  split
  · exact .after (rewrite_keeps ..) rfl (.refl _ _)
  · exact .refl _ _

/-- An event at the watch unit touches what its two parts touch, and the channels' image records. -/
theorem watchEvent_keeps {store evaluate : State → State} {s : State} {touched : List Piece}
    (h : within [.attention, .counts] touched = true) (hs : Keeps touched s (store s))
    (he : Keeps touched (store s) (evaluate (store s))) :
    Keeps touched s (watchEvent store evaluate s) :=
  .after (rewriteChannels_keeps ..) h (hs.trans he)

theorem rewriteWatched_keeps (id : RecordId) (s : State) :
    Keeps [.attention, .shadow, .intake, .watch, .counts] s (rewriteWatched id s) :=
  Keeps.trans ((rewrite_keeps id s).mono rfl)
    (watchEvent_keeps rfl (.refl _ _) ((evaluateRecord_keeps ..).mono rfl))

/-- What publishing touches. -/
theorem publish_keeps (forced : RecordId → Bool) (s : State) :
    Keeps [.attention, .shadow, .intake, .watch, .counts] s (publish forced s) := by
  unfold publish
  refine .after (rewriteChannels_keeps ..) rfl (.afterForList (.refl _ _) fun id u => ?_)
  split
  · exact .after (rewriteWatched_keeps ..) rfl (.refl _ _)
  · exact .refl _ _

/-! ### Every noted record is rewritten -/

/-- A record has been rewritten between two states. -/
def Rewritten (id : RecordId) (s t : State) : Prop :=
  ∃ n : Nat, n ≠ 0 ∧ t.changeCount id = s.changeCount id + BitVec.ofNat 16 (2 * n) ∧
    t.hasFlag id.flag = true

theorem Rewritten.after {id : RecordId} {s t u : State} (h : RewrittenOrNoted id s t)
    (g : Rewritten id t u) : Rewritten id s u := by
  obtain ⟨n, hc, -, -⟩ := h
  obtain ⟨m, hm, gc, gf⟩ := g
  exact ⟨n + m, by omega, by rw [gc, hc, Nat.mul_add, BitVec.ofNat_add, BitVec.add_assoc], gf⟩

theorem Rewritten.before {touched : List Piece} {id : RecordId} {s t u : State} (h : Rewritten id s t)
    (g : Keeps touched t u) (hid : id.isOwned) : Rewritten id s u := by
  obtain ⟨n, hn, hc, hf⟩ := h
  obtain ⟨m, gc, -, -⟩ := g.rewrites id hid
  exact ⟨n + m, by omega, by rw [gc, hc, Nat.mul_add, BitVec.ofNat_add, BitVec.add_assoc], g.flags _ hf⟩

theorem rewriteWatched_rewritten {id : RecordId} (hid : id.isOwned) (s : State) :
    Rewritten id s (rewriteWatched id s) :=
  Rewritten.before
    ⟨1, by decide, by simp [changeCount_rewrite], rewrite_flag id s⟩
    (watchEvent_keeps (touched := [.attention, .shadow, .intake, .watch, .counts]) rfl (.refl _ _)
      ((evaluateRecord_keeps ..).mono rfl)) hid

theorem mem_ownerRecords {id : RecordId} (hid : id.isOwned) : id ∈ ownerRecords := by
  cases id <;> first | exact absurd rfl (hid _) | simp [ownerRecords]

theorem forList_append {α : Type} (l m : List α) (f : α → State → State) (s : State) :
    forList (l ++ m) f s = forList m f (forList l f s) := by
  simp [forList]

/-- A record that is noted is rewritten when the event's records are published. -/
theorem publish_rewritten {forced : RecordId → Bool} {id : RecordId} (hid : id.isOwned) {s : State}
    (h : id ∈ s.changed) : Rewritten id s (publish forced s) := by
  have one : ∀ (x : RecordId) (u : State), Keeps [.attention, .shadow, .intake, .watch, .counts] u
      (if isRewritten forced u x then rewriteWatched x u else u) := fun x u => by
    split
    · exact rewriteWatched_keeps ..
    · exact .refl _ _
  obtain ⟨l, m, hl⟩ := List.append_of_mem (mem_ownerRecords hid)
  have before := Keeps.forList (l := l) (s := s) one
  have here : ∀ u : State, id ∈ u.changed →
      Rewritten id u (if isRewritten forced u id then rewriteWatched id u else u) := fun u hu => by
    rw [if_pos (by simp [isRewritten, hu])]
    exact rewriteWatched_rewritten hid u
  have all := ((Rewritten.after (before.rewrites id hid) (here _ (before.noted id h))).before (Keeps.forList (l := m) one) hid).before
    (rewriteChannels_keeps (fun k => forced (.watch k)) _) hid
  unfold publish
  rw [hl, forList_append]
  exact all

/-- What an event touches, said from a state that differs from its first by what is left out of account: what
its acts touch, and the watch unit and the image records at its end. Every record it changes is rewritten, and
the records noted in an enclosing event stay so. -/
theorem asEvent_keeps_from {touched : List Piece} {forced : RecordId → Bool} {act : State → State}
    {u s : State} (hT : within [.attention, .shadow, .intake, .watch, .counts] touched = true)
    (hu : u.changed = s.changed)
    (ha : Keeps touched { u with changed := [] } (act { s with changed := [] })) :
    Keeps touched u (asEvent forced act s) := by
  have hp := publish_keeps forced (act { s with changed := [] })
  have hv := fun id (hid : RecordId.isOwned id) => hp.same.view (by decide) hid
  have hr := fun id (hid : RecordId.isOwned id) (hm : id ∈ (act { s with changed := [] }).changed) =>
    publish_rewritten (forced := forced) hid hm
  have both := ha.trans (hp.mono hT)
  refine ⟨⟨fun p hp => ?_, both.settled, both.cards, both.memory, both.flags, both.memoryOk,
    fun id h => hu ▸ h, both.once, both.rejoins, fun id hid => ?_⟩, both.images⟩
  · have := both.same p hp
    cases p <;> exact this
  · by_cases hm : id ∈ (act { s with changed := [] }).changed
    · obtain ⟨n, hn, hc, hf⟩ := Rewritten.after (ha.rewrites id hid) (hr id hid hm)
      exact ⟨n, by cases id <;> exact hc, fun h0 => absurd h0 hn, fun _ => hf⟩
    · obtain ⟨n, hc, hn, hf⟩ := ha.rewrites id hid
      obtain ⟨m, gc, -, gf⟩ := hp.rewrites id hid
      refine ⟨n + m, ?_, fun h0 => .inl ?_, fun h0 => ?_⟩
      · have e := gc.trans (congrArg (· + BitVec.ofNat 16 (2 * m)) hc)
        rw [Nat.mul_add, BitVec.ofNat_add, ← BitVec.add_assoc]
        cases id <;> exact e
      · obtain ⟨rfl, rfl⟩ : n = 0 ∧ m = 0 := by omega
        have e := (hv id hid).trans ((hn rfl).resolve_right hm)
        cases id <;> exact e
      · rcases Nat.eq_zero_or_pos m with rfl | hpos
        · exact hp.flags _ (hf (by omega))
        · exact gf (by omega)

/-- What an event touches: what its acts touch, and the watch unit and the image records at its end. -/
theorem asEvent_keeps {touched : List Piece} {forced : RecordId → Bool} {act : State → State}
    (hT : within [.attention, .shadow, .intake, .watch, .counts] touched = true)
    (h : ∀ s, Keeps touched s (act s)) (s : State) : Keeps touched s (asEvent forced act s) :=
  asEvent_keeps_from hT rfl (h _)

/-- What a hand-over that is taken early touches. -/
theorem takeEarly_keeps {touched : List Piece} {act : State → State}
    (hT : within [.attention, .shadow, .intake, .watch, .counts, .handovers] touched = true)
    (h : ∀ s, Keeps touched s (act s)) (x : Handover) (s : State) : Keeps touched s (takeEarly x act s) := by
  have sub : ∀ {a : List Piece}, within a [.attention, .shadow, .intake, .watch, .counts, .handovers] = true →
      within a touched = true := fun ha => List.all_eq_true.mpr fun p hp => by
    simpa using within_mem hT (within_mem ha hp)
  unfold takeEarly
  split
  · exact ((dropHandover_keeps ..).mono (sub rfl)).trans (asEvent_keeps (sub rfl) h _)
  · exact .refl _ _

end Sys2Proof.Machine
end

