-- ==== Sys2Proof/Laws/KeepsPacks.lean ====
section
/-! SUPPORT. What the operations of the line, the stations' images, the packs, and holding a ramp may touch, one lemma for each (`Keeps`). -/

namespace Sys2Proof.Machine

-- One theorem at a time: many at once take much memory.
set_option Elab.async false

/-- After a queue request the list holds the stations it held, and the request's behind them if it is new. -/
theorem putPending_stations (l : List PendingSet) (i : Fin 48) (image : BitVec 32) (urgent : Bool) :
    (putPending l i image urgent).map (·.station) =
      if i ∈ l.map (·.station) then l.map (·.station) else l.map (·.station) ++ [i] := by
  induction l with
  | nil => rfl
  | cons e rest ih =>
    unfold putPending
    by_cases h : e.station = i
    · simp [h]
    · rw [if_neg h, List.map_cons, ih]
      by_cases hm : i ∈ rest.map (·.station)
      · simp only [List.map_cons, List.mem_cons, hm, or_true, if_true]
      · simp only [List.map_cons, List.mem_cons, hm, or_false, if_false, Ne.symm h, List.cons_append]

/-- A queue request does to the list what R16 says of it. -/
theorem putPending_requestTaken (l : List PendingSet) (e : PendingSet) :
    requestTaken l e (putPending l e.station e.image e.urgent) := by
  constructor
  · intro h
    induction l with
    | nil => rfl
    | cons x rest ih =>
      rw [putPending, if_neg (h x List.mem_cons_self),
        ih fun y hy => h y (List.mem_cons_of_mem _ hy), List.cons_append]
  · rintro a x b rfl hx ha
    induction a with
    | nil => simp [putPending, hx]
    | cons y rest ih =>
      rw [List.cons_append, putPending, if_neg (ha y List.mem_cons_self),
        ih fun z hz => ha z (List.mem_cons_of_mem _ hz), List.cons_append]

theorem putPending_once {s : State} (i : Fin 48) (image : BitVec 32) (urgent : Bool) (h : s.listOnce) :
    ((putPending s.line.pending i image urgent).map (·.station)).Nodup := by
  rw [putPending_stations]
  split
  · exact h
  · rename_i hm
    exact List.nodup_append.2 ⟨h, List.nodup_singleton i, by
      rintro a ha b hb rfl
      exact hm (List.mem_singleton.1 hb ▸ ha)⟩

theorem removeEntry_once {s : State} (i : Fin 48) (h : s.listOnce) :
    ((s.line.removeEntry i).pending.map (·.station)).Nodup :=
  List.Nodup.sublist (List.Sublist.map _ List.filter_sublist) h

theorem settleEntry_once {s : State} (t : Transaction) (o : LineOutcome) (h : s.listOnce) :
    ((settleEntry t o s.line).pending.map (·.station)).Nodup := by
  unfold settleEntry
  split
  · exact h
  · split
    · dsimp only
      split <;> exact removeEntry_once _ h
    · exact h

theorem endSet_once {s : State} (t : Transaction) (o : LineOutcome) (h : s.listOnce) :
    ((endSet t o s.line).pending.map (·.station)).Nodup := by
  have hs : State.listOnce { s with line := endTransaction t s.line } := h
  dsimp only [endSet]
  split
  · exact removeEntry_once (s := { s with line := endTransaction t s.line }) _ hs
  · split <;> exact settleEntry_once (s := { s with line := endTransaction t s.line }) t o hs

theorem queueRequest_keeps (i : Fin 48) (image : BitVec 32) (urgent : Bool) (s : State) :
    Keeps [.lineList] s (queueRequest i image urgent s) :=
  setLists_keeps _ _ rfl (putPending_once i image urgent)

theorem beginSet_keeps (e : PendingSet) (s : State) :
    Keeps [.lineCourse, .stationSequences] s (beginSet e s) :=
  .after (setCourse_keeps _ _ rfl rfl) rfl (.after (setSequence_keeps _ _ _) rfl (.refl _ _))

theorem choosePoll_lists (s : State) :
    (choosePoll s).pending = s.line.pending ∧ (choosePoll s).owed = s.line.owed := by
  unfold choosePoll
  split <;> exact ⟨rfl, rfl⟩

theorem chooseTransaction_keeps (s : State) :
    Keeps [.lineCourse, .stationSequences] s (chooseTransaction s) := by
  unfold chooseTransaction
  split
  · split
    · exact beginSet_keeps _ _
    · exact .after (setCourse_keeps _ _ (choosePoll_lists s).1 (choosePoll_lists s).2) rfl (.refl _ _)
  · exact .refl _ _

theorem endPoll_keeps (t : Transaction) (o : LineOutcome) (s : State) :
    Keeps [.lineList, .lineCourse] s (endPoll t o s) := by
  dsimp only [endPoll]
  split
  · exact .after (setLine_keeps _ _ fun h => h) rfl
      (.after (queueRequest_keeps ..) rfl (.after (setLine_keeps _ _ fun h => h) rfl (.refl _ _)))
  · exact setLine_keeps _ _ fun h => h

theorem endAttempt_keeps (t : Transaction) (o : LineOutcome) (s : State) :
    Keeps [.lineList, .lineCourse] s (endAttempt t o s).state := by
  have h : Keeps [.lineList, .lineCourse] s (setLine (settle (settleTimeOf o) s.line) s) :=
    setLine_keeps _ _ fun h => h
  unfold endAttempt
  split
  · exact h.trans (setLine_keeps _ _ fun h => h)
  · split
    · exact h.trans (endPoll_keeps ..)
    · split
      · exact h.trans (setLine_keeps _ _ (endSet_once _ _))
      · exact h.trans (setLine_keeps _ _ fun h => h)

theorem pauseAfterWait_keeps (t : Transaction) (s : State) :
    Keeps [.lineCourse] s (pauseAfterWait t s) :=
  setCourse_keeps _ _ rfl rfl

theorem nextAttempt_keeps (t : Transaction) (e : PendingSet) (s : State) :
    Keeps [.lineCourse, .stationSequences] s (nextAttempt t e s) :=
  .after (setCourse_keeps _ _ rfl rfl) rfl (.after (setSequence_keeps _ _ _) rfl (.refl _ _))

theorem endSettling_keeps (s : State) :
    Keeps [.lineCourse, .stationSequences] s (endSettling s) := by
  dsimp only [endSettling]
  split
  · split
    · exact nextAttempt_keeps _ _ _
    · exact .after (setCourse_keeps _ _ rfl rfl) rfl (.refl _ _)
  · exact .after (setCourse_keeps _ _ rfl rfl) rfl (.refl _ _)

theorem removalRequest_keeps (i : Fin 48) (s : State) :
    Keeps [.lineList, .lineCourse] s (removalRequest i s) := by
  dsimp only [removalRequest]
  split
  · exact setLine_keeps _ _ (removeEntry_once i)
  · split
    · exact setLine_keeps _ _ (removeEntry_once i)
    · exact setLine_keeps _ _ (removeEntry_once i)
    · exact setLine_keeps _ _ fun h => h

theorem lineAdoptStations_keeps (s : State) :
    Keeps [.lineList, .lineCourse] s (lineAdoptStations s) := by
  dsimp only [lineAdoptStations]
  split
  · exact setLine_keeps _ _ fun _ => List.nodup_nil
  · split <;> exact setLine_keeps _ _ fun _ => List.nodup_nil

theorem requestForChange_keeps (i : Fin 48) (image : BitVec 32) (urgent : Bool) (s : State) :
    Keeps [
      .lineList] s
      (requestForChange i image urgent s) := by
  dsimp only [requestForChange]
  repeat'
    first
    | with_reducible apply Keeps.refl
    | ((with_reducible apply Keeps.after (queueRequest_keeps ..)); rfl)
    | split

/-- Composition reads the tables and the records of the packs, ramps, doors and channels. -/
theorem SameBut.composeImage {touched : List Piece} {s t : State} (h : SameBut touched s t)
    (hd : [Piece.tables, .packs, .ramps, .doors, .channels].all (fun p => !touched.contains p) = true)
    (i : Fin 48) : Machine.composeImage t i = Machine.composeImage s i := by
  have same : ∀ p ∈ [Piece.tables, .packs, .ramps, .doors, .channels], p.same s t := fun p hp =>
    h p (by simpa using List.all_eq_true.mp hd p hp)
  have ep : t.packs = s.packs := same .packs (by simp)
  have er : t.ramps = s.ramps := same .ramps (by simp)
  have ed : t.doors = s.doors := same .doors (by simp)
  have ec : t.channels = s.channels := same .channels (by simp)
  exact composeImage_congr (same .tables (by simp)) (fun _ _ => by rw [er]) (fun _ _ => by rw [ep])
    (fun _ _ => by rw [ed]) (fun _ _ => by rw [ec])

/-- A station's image reads the records of its own kind of owner. -/
theorem composeImage_byKind {s t : State} {i : Fin 48} (ht : t.tables = s.tables)
    (hr : s.stationKind i = .ramp → t.ramps = s.ramps) (hp : s.stationKind i = .pack → t.packs = s.packs)
    (hd : s.stationKind i = .door → t.doors = s.doors)
    (hz : s.stationKind i = .call → t.channels = s.channels) : composeImage t i = composeImage s i := by
  have ek : t.stationKind i = s.stationKind i := by simp only [State.stationKind, ht]
  unfold composeImage
  rw [ek]
  cases hk : s.stationKind i <;> try rfl
  · simp only [doorImage, State.doorsOn, State.doorEntry, ht, hd hk]
  · simp only [State.rampsOn, State.rampEntry, ht, hr hk]
  · simp only [State.packsOn, ht, hp hk]
  · simp only [State.zonesCalling, ht, hz hk]

/-- A station's image is the composed one. -/
def State.followsAt (s : State) (i : Fin 48) : Prop := s.stations[i].image = composeImage s i

theorem contribute_touches (i : Fin 48) (urgent : Bool) (s : State) :
    Touches [.lineList, .stationImages] s (contribute i urgent s) := by
  dsimp only [contribute]
  split
  · exact .refl _ _
  · exact ((setImage_touches i _ s).mono rfl).trans ((requestForChange_keeps ..).touches rfl)

theorem contribute_image (i j : Fin 48) (urgent : Bool) (s : State) :
    (contribute i urgent s).stations[j].image = if i = j then composeImage s i else s.stations[j].image := by
  dsimp only [contribute]
  split
  · rename_i h
    split
    · rename_i e; subst e; exact h.symm
    · rfl
  · refine ((requestForChange_keeps ..).same .stationImages (by decide) j).trans ?_
    rw [setStation_get]
    by_cases e : i = j
    · subst e; simp
    · simp [e]

/-- After a contribution for a station its image follows, and every image that did still does. -/
theorem contribute_followsAt {i j : Fin 48} {urgent : Bool} {s : State} (h : i = j ∨ s.followsAt j) :
    (contribute i urgent s).followsAt j := by
  unfold State.followsAt
  rw [contribute_image, (contribute_touches i urgent s).same.composeImage rfl]
  split
  · rename_i e; rw [e]
  · rename_i e; exact h.resolve_left e

theorem contribute_keeps (i : Fin 48) (urgent : Bool) (s : State) :
    Keeps [.lineList, .stationImages] s (contribute i urgent s) :=
  ⟨contribute_touches i urgent s, fun h j => contribute_followsAt (.inr (h j))⟩

/-- A record of a station replaced, then a contribution for that station (R36, R37). -/
theorem Touches.contribute {touched : List Piece} {s t : State} (h : Touches touched s t) (i : Fin 48)
    (urgent : Bool) (hi : Piece.stationImages ∉ touched)
    (hc : ∀ j, i ≠ j → composeImage t j = composeImage s j) :
    Keeps ([.lineList, .stationImages] ++ touched) s (Machine.contribute i urgent t) where
  toTouches := (h.mono (by simp +contextual [within])).trans ((contribute_touches i urgent t).mono (by simp [within]))
  images hs j := contribute_followsAt (by
    by_cases e : i = j
    · exact .inl e
    · exact .inr ((h.same .stationImages hi j).trans ((hs j).trans (hc j e).symm)))

/-- A record replaced that no station serves. -/
theorem Touches.uncontributed {touched : List Piece} {s t : State} (h : Touches touched s t)
    (hi : Piece.stationImages ∉ touched) (hc : ∀ j, composeImage t j = composeImage s j) :
    Keeps touched s t := ⟨h, fun hs j => (h.same .stationImages hi j).trans ((hs j).trans (hc j).symm)⟩

/-- Operations for the elements of a list keep a station's image following. -/
theorem forList_followsAt {α : Type} {l : List α} {f : α → State → State} {s : State} {j : Fin 48}
    (hf : ∀ x t, t.followsAt j → (f x t).followsAt j) (h : s.followsAt j) : (forList l f s).followsAt j := by
  induction l generalizing s with
  | nil => exact h
  | cons x rest ih => exact ih (hf x s h)

/-- One of them makes it follow. -/
theorem forList_makes_followsAt {α : Type} {l : List α} {f : α → State → State} {s : State} {j : Fin 48} {x : α}
    (hf : ∀ y t, t.followsAt j → (f y t).followsAt j) (ht : ∀ y t, (f y t).tables = t.tables)
    (hx : ∀ t, t.tables = s.tables → (f x t).followsAt j) (hl : x ∈ l) : (forList l f s).followsAt j := by
  induction l generalizing s with
  | nil => cases hl
  | cons y rest ih =>
    rcases List.mem_cons.1 hl with rfl | hm
    · exact forList_followsAt (s := f x s) hf (hx s rfl)
    · exact ih (s := f y s) (fun t h => hx t (h.trans (ht y s))) hm

theorem recomposeAll_touches (s : State) : Touches [.lineList, .stationImages] s (recomposeAll s) :=
  (Keeps.forEach fun i t => contribute_keeps i false t).toTouches

/-- At an adoption every image follows the new tables and records, whatever it was before (R36, R37). -/
theorem recomposeAll_follows (s : State) : (recomposeAll s).imagesFollow := fun j =>
  forList_makes_followsAt (x := j) (fun _ _ h => contribute_followsAt (.inr h))
    (fun i t => (contribute_touches i false t).same .tables (by decide))
    (fun _ _ => contribute_followsAt (.inl rfl)) (List.mem_finRange j)

theorem Touches.recomposeAll {touched : List Piece} {s t : State} (h : Touches touched s t)
    (hw : within [.lineList, .stationImages] touched = true) : Keeps touched s (Machine.recomposeAll t) :=
  ⟨h.trans ((recomposeAll_touches t).mono hw), fun _ => recomposeAll_follows t⟩

/-- The records of a kind of station replaced, then a contribution for every station of the kind. -/
theorem Touches.contributeKind {touched : List Piece} {s t : State} (h : Touches touched s t) (k : StationKind)
    (hi : Piece.stationImages ∉ touched)
    (hc : ∀ j, t.stationKind j ≠ k → composeImage t j = composeImage s j) :
    Keeps ([.lineList, .stationImages] ++ touched) s
      (Machine.forEach 48 (fun i s => if s.stationKind i = k then Machine.contribute i false s else s) t) := by
  have one : ∀ (i : Fin 48) (u : State), Keeps [.lineList, .stationImages] u
      (if u.stationKind i = k then Machine.contribute i false u else u) := fun i u => by
    split
    · exact contribute_keeps ..
    · exact .refl _ _
  have stays : ∀ (j i : Fin 48) (u : State), u.followsAt j →
      (if u.stationKind i = k then Machine.contribute i false u else u).followsAt j := fun j i u hj => by
    split
    · exact contribute_followsAt (.inr hj)
    · exact hj
  refine ⟨(h.mono (by simp +contextual [within])).trans
    ((Keeps.forEach one).touches (by simp [within])), fun hs j => ?_⟩
  by_cases e : t.stationKind j = k
  · refine forList_makes_followsAt (x := j) (stays j) (fun i u => (one i u).same .tables (by decide))
      (fun u hu => ?_) (List.mem_finRange j)
    rw [if_pos (by simpa only [State.stationKind, hu] using e)]
    exact contribute_followsAt (.inl rfl)
  · exact forList_followsAt (stays j) ((h.same .stationImages hi j).trans ((hs j).trans (hc j e).symm))

theorem mem_rampsOn {s : State} {r : Fin 4} {i : Fin 48} :
    r ∈ s.rampsOn i ↔ ∃ e, s.rampEntry r = some e ∧ e.station = i := by
  unfold State.rampsOn
  cases h : s.rampEntry r <;> simp [List.mem_filter, h]

theorem mem_doorsOn {s : State} {d : Fin 32} {i : Fin 48} :
    d ∈ s.doorsOn i ↔ ∃ e, s.doorEntry d = some e ∧ e.station = i := by
  unfold State.doorsOn
  cases h : s.doorEntry d <;> simp [List.mem_filter, h]

theorem mem_packsOn {s : State} {p : Fin 2} {i : Fin 48} :
    p ∈ s.packsOn i ↔ (s.packEntry p).station = some i := by
  simp [State.packsOn, State.packEntry, List.mem_filter]

theorem mem_zonesCalling {s : State} {z : Fin 8} {i : Fin 48} :
    z ∈ s.zonesCalling i ↔ (s.zoneEntry z).callStation = some i := by
  simp [State.zonesCalling, State.zoneEntry, List.mem_filter]

/-- A record of which the station is another one contributes nothing to a station. -/
theorem composeImage_setRamp {r : Fin 4} {x : RampRecord} {s : State} {j : Fin 48} (h : r ∉ s.rampsOn j) :
    composeImage (setRamp r x s) j = composeImage s j :=
  composeImage_congr rfl (fun _ hq => congrArg RampRecord.valves
    (Vector.getElem_set_ne (Fin.isLt _) (Fin.isLt _) fun e => h (Fin.ext e ▸ hq))) (fun _ _ => rfl) (fun _ _ => rfl) (fun _ _ => rfl)

theorem composeImage_setPack {p : Fin 2} {x : PackRecord} {s : State} {j : Fin 48} (h : p ∉ s.packsOn j) :
    composeImage (setPack p x s) j = composeImage s j :=
  composeImage_congr rfl (fun _ _ => rfl) (fun _ hq => congrArg PackRecord.pumpRun
    (Vector.getElem_set_ne (Fin.isLt _) (Fin.isLt _) fun e => h (Fin.ext e ▸ hq))) (fun _ _ => rfl) (fun _ _ => rfl)

theorem composeImage_putDoor {d : Fin 32} {x : DoorRecord} {s : State} {j : Fin 48} (h : d ∉ s.doorsOn j) :
    composeImage (putDoor d x s) j = composeImage s j :=
  composeImage_congr rfl (fun _ _ => rfl) (fun _ _ => rfl) (fun _ hq => congrArg DoorRecord.outputs
    (Vector.getElem_set_ne (Fin.isLt _) (Fin.isLt _) fun e => h (Fin.ext e ▸ hq))) (fun _ _ => rfl)

theorem composeImage_setChannel {z : Fin 8} {x : ChannelRecord} {s : State} {j : Fin 48}
    (h : z ∉ s.zonesCalling j) : composeImage (setChannel z x s) j = composeImage s j :=
  composeImage_congr rfl (fun _ _ => rfl) (fun _ _ => rfl) (fun _ _ => rfl) (fun _ hq =>
    congrArg ChannelRecord.contribution (Vector.getElem_set_ne (Fin.isLt _) (Fin.isLt _) fun e => h (Fin.ext e ▸ hq)))

/-- A ramp record replaced, with its contribution handed to its station. -/
theorem setRamp_contribute (r : Fin 4) (x : RampRecord) (urgent : Bool) (s : State) :
    Keeps [.lineList, .stationImages, .ramps] s (contributeRamp r urgent (setRamp r x s)) := by
  unfold contributeRamp
  rw [show (setRamp r x s).rampEntry r = s.rampEntry r from rfl]
  split
  · rename_i e he
    exact (setRamp_touches r x s).contribute _ urgent (by decide) fun j hj =>
      composeImage_setRamp fun hm => by obtain ⟨e', h1, h2⟩ := mem_rampsOn.1 hm; simp_all
  · rename_i he
    exact ((setRamp_touches r x s).uncontributed (by decide) fun j =>
      composeImage_setRamp fun hm => by obtain ⟨e', h1, h2⟩ := mem_rampsOn.1 hm; simp_all).mono rfl

theorem setDoor_contribute (d : Fin 32) (x : DoorRecord) (urgent : Bool) (s : State) :
    Keeps [.lineList, .stationImages, .doors] s (contributeDoor d urgent (putDoor d x s)) := by
  unfold contributeDoor
  rw [show (putDoor d x s).doorEntry d = s.doorEntry d from rfl]
  split
  · rename_i e he
    exact (putDoor_touches d x s).contribute _ urgent (by decide) fun j hj =>
      composeImage_putDoor fun hm => by obtain ⟨e', h1, h2⟩ := mem_doorsOn.1 hm; simp_all
  · rename_i he
    exact ((putDoor_touches d x s).uncontributed (by decide) fun j =>
      composeImage_putDoor fun hm => by obtain ⟨e', h1, h2⟩ := mem_doorsOn.1 hm; simp_all).mono rfl

theorem setPack_contribute (p : Fin 2) (x : PackRecord) (urgent : Bool) (s : State) :
    Keeps [.lineList, .stationImages, .packs] s (contributePack p urgent (setPack p x s)) := by
  unfold contributePack
  rw [show (setPack p x s).packEntry p = s.packEntry p from rfl]
  split
  · rename_i i hi
    exact (setPack_touches p x s).contribute _ urgent (by decide) fun j hj =>
      composeImage_setPack fun hm => by simp_all [mem_packsOn]
  · rename_i hi
    exact ((setPack_touches p x s).uncontributed (by decide) fun j =>
      composeImage_setPack fun hm => by simp_all [mem_packsOn]).mono rfl

theorem setChannel_contribute (z : Fin 8) (x : ChannelRecord) (urgent : Bool) (s : State) :
    Keeps [.lineList, .stationImages, .channels] s (contributeChannel z urgent (setChannel z x s)) := by
  unfold contributeChannel
  rw [show (setChannel z x s).zoneEntry z = s.zoneEntry z from rfl]
  split
  · rename_i i hi
    exact (setChannel_touches z x s).contribute _ urgent (by decide) fun j hj =>
      composeImage_setChannel fun hm => by simp_all [mem_zonesCalling]
  · rename_i hi
    exact ((setChannel_touches z x s).uncontributed (by decide) fun j =>
      composeImage_setChannel fun hm => by simp_all [mem_zonesCalling]).mono rfl

theorem contributeRamp_keeps (r : Fin 4) (urgent : Bool) (s : State) :
    Keeps [.lineList,
      .stationImages] s
      (contributeRamp r urgent s) := by
  dsimp only [contributeRamp]
  repeat'
    first
    | with_reducible apply Keeps.refl
    | ((with_reducible apply Keeps.after (contribute_keeps ..)); rfl)
    | split

theorem contributeDoor_keeps (d : Fin 32) (urgent : Bool) (s : State) :
    Keeps [.lineList,
      .stationImages] s
      (contributeDoor d urgent s) := by
  dsimp only [contributeDoor]
  repeat'
    first
    | with_reducible apply Keeps.refl
    | ((with_reducible apply Keeps.after (contribute_keeps ..)); rfl)
    | split

theorem contributePack_keeps (p : Fin 2) (urgent : Bool) (s : State) :
    Keeps [.lineList,
      .stationImages] s
      (contributePack p urgent s) := by
  dsimp only [contributePack]
  repeat'
    first
    | with_reducible apply Keeps.refl
    | ((with_reducible apply Keeps.after (contribute_keeps ..)); rfl)
    | split

theorem contributeChannel_keeps (z : Fin 8) (urgent : Bool) (s : State) :
    Keeps [.lineList,
      .stationImages] s
      (contributeChannel z urgent s) := by
  dsimp only [contributeChannel]
  repeat'
    first
    | with_reducible apply Keeps.refl
    | ((with_reducible apply Keeps.after (contribute_keeps ..)); rfl)
    | split

theorem judgeParkHold_keeps (p : Fin 2) (s : State) :
    Keeps [.packs] s
      (judgeParkHold p s) := by
  dsimp only [judgeParkHold]
  repeat'
    first
    | with_reducible apply Keeps.refl
    | ((with_reducible refine Keeps.after (setPack_keeps _ _ _ ?_) ?_ ?_); rfl; rfl)
    | split

theorem grant_keeps (p : Fin 2) (q : Requester) (s : State) :
    Keeps [.packs, .handovers] s (grant p q s) :=
  .after (handOver_keeps ..) rfl
    (.after (dropPreemption_keeps p _) rfl (.after (setPack_keeps _ _ _ rfl) rfl (.refl _ _)))

theorem startPump_keeps (p : Fin 2) (s : State) :
    Keeps [.lineList, .stationImages, .packs] s
      (startPump p s) := by
  dsimp only [startPump]
  exact (setPack_contribute _ _ _ _).mono rfl

theorem choose_keeps (p : Fin 2) (s : State) :
    Keeps [.lineList, .stationImages, .packs, .handovers] s
      (choose p s) := by
  dsimp only [choose]
  repeat'
    first
    | with_reducible apply Keeps.refl
    | ((with_reducible apply Keeps.after (startPump_keeps ..)); rfl)
    | ((with_reducible apply Keeps.after (grant_keeps ..)); rfl)
    | ((with_reducible refine Keeps.after (setPack_keeps _ _ _ ?_) ?_ ?_); rfl; rfl)
    | split

theorem preemptionTest_keeps (p : Fin 2) (s : State) :
    Keeps [.packs, .handovers] s
      (preemptionTest p s) := by
  dsimp only [preemptionTest]
  repeat'
    first
    | with_reducible apply Keeps.refl
    | ((with_reducible apply Keeps.after (handOver_keeps ..)); rfl)
    | ((with_reducible refine Keeps.after (setPack_keeps _ _ _ ?_) ?_ ?_); rfl; rfl)
    | split

theorem takeWithdrawal_keeps (p : Fin 2) (q : Requester) (s : State) :
    Keeps [.lineList,
      .stationImages, .packs, .handovers] s
      (takeWithdrawal p q s) := by
  dsimp only [takeWithdrawal]
  repeat'
    first
    | with_reducible apply Keeps.refl
    | ((with_reducible apply Keeps.after (judgeParkHold_keeps ..)); rfl)
    | ((with_reducible apply Keeps.after (choose_keeps ..)); rfl)
    | ((with_reducible refine Keeps.after (setPack_keeps _ _ _ ?_) ?_ ?_); rfl; rfl)
    | split

theorem withdraw_keeps (p : Fin 2) (q : Requester) (s : State) :
    Keeps [.handovers] s
      (withdraw p q s) := by
  dsimp only [withdraw]
  repeat'
    first
    | with_reducible apply Keeps.refl
    | ((with_reducible apply Keeps.after (handOver_keeps ..)); rfl)

theorem settleWithdrawal_keeps (p : Fin 2) (q : Requester) (s : State) :
    Keeps [.lineList,
      .stationImages, .packs, .handovers] s
      (settleWithdrawal p q s) := by
  dsimp only [settleWithdrawal]
  repeat'
    first
    | with_reducible apply Keeps.refl
    | ((with_reducible apply Keeps.after (takeWithdrawal_keeps ..)); rfl)
    | ((with_reducible apply Keeps.after (dropHandover_keeps ..)); rfl)
    | split

theorem requestPack_keeps (p : Fin 2) (q : Requester) (c : RequestClass) (s : State) :
    Keeps [
      .lineList, .stationImages, .packs, .handovers] s
      (requestPack p q c s) := by
  have h := settleWithdrawal_keeps p q s
  dsimp only [requestPack]
  generalize settleWithdrawal p q s = u at h ⊢
  split
  · exact h
  · exact .after (judgeParkHold_keeps ..) rfl (.after (preemptionTest_keeps ..) rfl
      (.after (choose_keeps ..) rfl (.after (setPack_keeps _ _ _ rfl) rfl h)))

theorem releasePack_keeps (p : Fin 2) (q : Requester) (s : State) :
    Keeps [.lineList,
      .stationImages, .packs, .handovers] s
      (releasePack p q s) := by
  dsimp only [releasePack]
  repeat'
    first
    | with_reducible apply Keeps.refl
    | ((with_reducible apply Keeps.after (judgeParkHold_keeps ..)); rfl)
    | ((with_reducible apply Keeps.after (choose_keeps ..)); rfl)
    | ((with_reducible apply Keeps.after (takeWithdrawal_keeps ..)); rfl)
    | ((with_reducible refine Keeps.after (setPack_keeps _ _ _ ?_) ?_ ?_); rfl; rfl)
    | split

theorem parkReachesDeck_keeps (h : Fin 4) (s : State) :
    Keeps [.lineList, .stationImages, .packs, .handovers] s (parkReachesDeck h s) := by
  unfold parkReachesDeck
  refine .afterForEach (.refl _ _) fun p u => ?_
  dsimp only
  split
  · exact .after (judgeParkHold_keeps ..) rfl (.after (choose_keeps ..) rfl
      (.after (setPack_keeps _ _ _ rfl) rfl (.refl _ _)))
  · exact .refl _ _

theorem enterReady_keeps (p : Fin 2) (s : State) :
    Keeps [.lineList, .stationImages, .packs,
      .handovers] s
      (enterReady p s) := by
  dsimp only [enterReady]
  repeat'
    first
    | with_reducible apply Keeps.refl
    | ((with_reducible apply Keeps.after (judgeParkHold_keeps ..)); rfl)
    | ((with_reducible apply Keeps.after (choose_keeps ..)); rfl)
    | ((with_reducible refine Keeps.after (setPack_keeps _ _ _ ?_) ?_ ?_); rfl; rfl)

theorem judgeReady_keeps (p : Fin 2) (s : State) :
    Keeps [.lineList, .stationImages, .packs,
      .handovers] s
      (judgeReady p s) := by
  dsimp only [judgeReady]
  repeat'
    first
    | with_reducible apply Keeps.refl
    | ((with_reducible apply Keeps.after (enterReady_keeps ..)); rfl)
    | split

theorem judgeRecovery_keeps (p : Fin 2) (s : State) :
    Keeps [.lineList, .stationImages, .packs,
      .handovers] s
      (judgeRecovery p s) := by
  dsimp only [judgeRecovery]
  repeat'
    first
    | with_reducible apply Keeps.refl
    | ((with_reducible apply Keeps.after (choose_keeps ..)); rfl)
    | ((with_reducible refine Keeps.after (setPack_keeps _ _ _ ?_) ?_ ?_); rfl; rfl)
    | split

theorem parkHoldOver_keeps (p : Fin 2) (s : State) :
    Keeps [.lineList, .stationImages, .packs] s
      (parkHoldOver p s) := by
  dsimp only [parkHoldOver]
  exact (setPack_contribute _ _ _ _).mono rfl

theorem contributeValves_keeps (r : Fin 4) (valves : BitVec 8) (urgent : Bool) (s : State) :
    Keeps [
      .lineList, .stationImages, .ramps] s
      (contributeValves r valves urgent s) := by
  dsimp only [contributeValves]
  exact (setRamp_contribute _ _ _ _).mono rfl

theorem giveBackPack_keeps (r : Fin 4) (waiting : Bool) (s : State) :
    Keeps [.lineList,
      .stationImages, .packs, .ramps, .handovers] s
      (giveBackPack r waiting s) := by
  dsimp only [giveBackPack]
  repeat'
    first
    | with_reducible apply Keeps.refl
    | ((with_reducible apply Keeps.after (withdraw_keeps ..)); rfl)
    | ((with_reducible apply Keeps.after (releasePack_keeps ..)); rfl)
    | ((with_reducible apply Keeps.after (contributeValves_keeps ..)); rfl)
    | split

theorem stopProgram_keeps (r : Fin 4) (after : RampRecord) (o : OrderOutcome) (s : State)
    (hv : after.valves = s.ramps[r].valves) :
    Keeps [
      .attention, .shadow, .completed, .mem, .lineList, .stationImages, .packs, .ramps, .handovers] s
      (stopProgram r after o s) := by
  dsimp only [stopProgram]
  repeat'
    first
    | with_reducible apply Keeps.refl
    | ((with_reducible refine Keeps.after (setRamp_keeps _ _ _ ?_) ?_ ?_); exact hv; rfl)
    | ((with_reducible apply Keeps.after (endCardOf_keeps ..)); rfl)
    | ((with_reducible apply Keeps.after (giveBackPack_keeps ..)); rfl)

theorem holdRamp_keeps (r : Fin 4) (cause : HoldCause) (s : State) :
    Keeps [.attention, .shadow,
      .completed, .mem, .lineList, .stationImages, .packs, .ramps, .handovers] s
      (holdRamp r cause s) := by
  dsimp only [holdRamp]
  repeat'
    first
    | with_reducible apply Keeps.refl
    | ((with_reducible refine Keeps.after (stopProgram_keeps _ _ _ _ ?_) ?_ ?_); rfl; rfl)
    | split

theorem failRamp_keeps (r : Fin 4) (cause : RampFaultCause) (s : State) :
    Keeps [.attention,
      .shadow, .completed, .mem, .lineList, .stationImages, .packs, .ramps, .handovers] s
      (failRamp r cause s) := by
  dsimp only [failRamp]
  repeat'
    first
    | with_reducible apply Keeps.refl
    | ((with_reducible refine Keeps.after (stopProgram_keeps _ _ _ _ ?_) ?_ ?_); rfl; rfl)
    | split

theorem takeZoneHold_keeps (z : Fin 8) (s : State) :
    Keeps [.attention, .shadow, .completed, .mem,
      .lineList, .stationImages, .packs, .ramps, .handovers] s
      (takeZoneHold z s) := by
  dsimp only [takeZoneHold]
  repeat'
    first
    | with_reducible apply Keeps.refl
    | ((with_reducible apply Keeps.after (holdRamp_keeps ..)); rfl)
    | ((with_reducible apply Keeps.afterForEach); on_goal 2 => intro i u)
    | split

theorem gateLeftOpen_keeps (d : Fin 32) (s : State) :
    Keeps [.attention, .shadow, .completed, .mem,
      .lineList, .stationImages, .packs, .ramps, .handovers] s
      (gateLeftOpen d s) := by
  dsimp only [gateLeftOpen]
  repeat'
    first
    | with_reducible apply Keeps.refl
    | ((with_reducible apply Keeps.after (holdRamp_keeps ..)); rfl)
    | ((with_reducible apply Keeps.afterForEach); on_goal 2 => intro i u)
    | split

end Sys2Proof.Machine
end

