-- ==== Sys2Proof/Laws/KeepsZones.lean ====
section
/-! SUPPORT. What the operations of the call unit and the zones may touch, one lemma for each (`Keeps`). -/

namespace Sys2Proof.Machine

-- One theorem at a time: many at once take much memory.
set_option Elab.async false

theorem giveContribution_keeps (z : Fin 8) (c : CallContribution) (urgent : Bool) (s : State) :
    Keeps [
      .lineList, .stationImages, .channels] s
      (giveContribution z c urgent s) :=
  (setChannel_contribute _ _ _ _).mono rfl

theorem freeChannel_keeps (z : Fin 8) (s : State) :
    Keeps [.channels] s
      (freeChannel z s) := by
  dsimp only [freeChannel]
  repeat'
    first
    | with_reducible apply Keeps.refl
    | ((with_reducible refine Keeps.after (setChannel_keeps _ _ _ ?_) ?_ ?_); rfl; rfl)

theorem stopChannel_keeps (z : Fin 8) (s : State) :
    Keeps [.lineList, .stationImages, .channels] s
      (stopChannel z s) := by
  dsimp only [stopChannel]
  repeat'
    first
    | with_reducible apply Keeps.refl
    | ((with_reducible apply Keeps.after (freeChannel_keeps ..)); rfl)
    | ((with_reducible apply Keeps.after (giveContribution_keeps ..)); rfl)

theorem endCall_keeps (i : Fin 16) (o : OrderOutcome) (detail : Nat) (s : State) :
    Keeps [
      .attention, .shadow, .completed, .mem, .slots, .channels] s
      (endCall i o detail s) := by
  dsimp only [endCall]
  repeat'
    first
    | with_reducible apply Keeps.refl
    | ((with_reducible apply Keeps.after (freeChannel_keeps ..)); rfl)
    | ((with_reducible apply Keeps.after (endCardOf_keeps ..)); rfl)
    | ((with_reducible apply Keeps.after (setSlot_keeps ..)); rfl)
    | ((with_reducible apply Keeps.afterForList); on_goal 2 => intro i u)

theorem stopCall_keeps (i : Fin 16) (s : State) :
    Keeps [.lineList, .stationImages, .slots,
      .channels] s
      (stopCall i s) := by
  dsimp only [stopCall]
  repeat'
    first
    | with_reducible apply Keeps.refl
    | ((with_reducible apply Keeps.after (stopChannel_keeps ..)); rfl)
    | ((with_reducible apply Keeps.after (setSlot_keeps ..)); rfl)
    | ((with_reducible apply Keeps.afterForList); on_goal 2 => intro i u)

theorem beginPlay_keeps (i : Fin 16) (z : Fin 8) (s : State) :
    Keeps [.lineList, .stationImages,
      .slots, .channels] s
      (beginPlay i z s) := by
  dsimp only [beginPlay]
  repeat'
    first
    | with_reducible apply Keeps.refl
    | ((with_reducible apply Keeps.after (setSlot_keeps ..)); rfl)
    | ((with_reducible apply Keeps.after (giveContribution_keeps ..)); rfl)
    | ((with_reducible refine Keeps.after (setChannel_keeps _ _ _ ?_) ?_ ?_); rfl; rfl)
    | split

theorem countRepeat_keeps (i : Fin 16) (s : State) :
    Keeps [.attention, .shadow, .completed, .mem,
      .slots, .channels] s
      (countRepeat i s) := by
  dsimp only [countRepeat]
  repeat'
    first
    | with_reducible apply Keeps.refl
    | ((with_reducible apply Keeps.after (setSlot_keeps ..)); rfl)
    | ((with_reducible apply Keeps.after (endCall_keeps ..)); rfl)
    | split

theorem beginRepeat_keeps (n : Nat) (a : Fin 16) (s : State) :
    Keeps [.attention, .shadow,
      .completed, .mem, .lineList, .stationImages, .slots, .channels] s
      (beginRepeat n a s) := by
  induction n generalizing a s with
  | zero => exact Keeps.refl _ _
  | succ n ih =>
    dsimp only [beginRepeat]
    repeat'
      first
      | with_reducible apply Keeps.refl
      | ((with_reducible apply Keeps.after (ih ..)); rfl)
      | ((with_reducible apply Keeps.after (setSlot_keeps ..)); rfl)
      | ((with_reducible apply Keeps.after (beginPlay_keeps ..)); rfl)
      | ((with_reducible apply Keeps.after (countRepeat_keeps ..)); rfl)
      | ((with_reducible apply Keeps.afterForList); on_goal 2 => intro i u)
      | split

theorem judgeRepeat_keeps (i : Fin 16) (s : State) :
    Keeps [.attention, .shadow, .completed, .mem,
      .lineList, .stationImages, .slots, .channels] s
      (judgeRepeat i s) := by
  dsimp only [judgeRepeat]
  repeat'
    first
    | with_reducible apply Keeps.refl
    | ((with_reducible apply Keeps.after (countRepeat_keeps ..)); rfl)
    | ((with_reducible apply Keeps.after (beginRepeat_keeps ..)); rfl)
    | split

theorem cutCall_keeps (j : Fin 16) (s : State) :
    Keeps [.attention, .shadow, .completed, .mem,
      .lineList, .stationImages, .slots, .channels] s
      (cutCall j s) := by
  dsimp only [cutCall]
  repeat'
    first
    | with_reducible apply Keeps.refl
    | ((with_reducible apply Keeps.after (stopCall_keeps ..)); rfl)
    | ((with_reducible apply Keeps.after (setSlot_keeps ..)); rfl)
    | ((with_reducible apply Keeps.after (endCall_keeps ..)); rfl)
    | split

theorem startCall_keeps (i : Fin 16) (s : State) :
    Keeps [.attention, .shadow, .completed, .mem,
      .lineList, .stationImages, .slots, .channels] s
      (startCall i s) := by
  dsimp only [startCall]
  repeat'
    first
    | with_reducible apply Keeps.refl
    | ((with_reducible apply Keeps.after (setSlot_keeps ..)); rfl)
    | ((with_reducible apply Keeps.after (beginRepeat_keeps ..)); rfl)
    | ((with_reducible apply Keeps.afterForList); on_goal 2 => intro i u)
    | ((with_reducible refine Keeps.after (setChannel_keeps _ _ _ ?_) ?_ ?_); rfl; rfl)

theorem preemptAndStart_keeps (i : Fin 16) (s : State) :
    Keeps [.attention, .shadow, .completed,
      .mem, .lineList, .stationImages, .slots, .channels] s
      (preemptAndStart i s) := by
  dsimp only [preemptAndStart]
  repeat'
    first
    | with_reducible apply Keeps.refl
    | ((with_reducible apply Keeps.after (cutCall_keeps ..)); rfl)
    | ((with_reducible apply Keeps.after (startCall_keeps ..)); rfl)
    | ((with_reducible apply Keeps.afterForList); on_goal 2 => intro i u)
    | split

theorem actOnStart_keeps (i : Fin 16) (v : StartVerdict) (s : State) :
    Keeps [.attention, .shadow, .completed, .mem, .lineList, .stationImages, .slots, .channels] s (actOnStart i v s) := by
  cases v
  · exact .after (endCall_keeps ..) rfl (.refl _ _)
  · exact .after (startCall_keeps ..) rfl (.refl _ _)
  · exact .after (preemptAndStart_keeps ..) rfl (.refl _ _)
  · exact .refl _ _

theorem startTestWithin_keeps (n : Nat) (s : State) :
    Keeps [.attention, .shadow, .completed, .mem,
      .lineList, .stationImages, .slots, .channels] s
      (startTestWithin n s) := by
  induction n generalizing s with
  | zero => exact Keeps.refl _ _
  | succ n ih =>
    dsimp only [startTestWithin]
    repeat'
      first
      | with_reducible apply Keeps.refl
      | ((with_reducible apply Keeps.after (ih ..)); rfl)
      | ((with_reducible apply Keeps.after (actOnStart_keeps ..)); rfl)
      | split

theorem startTest_keeps (s : State) :
    Keeps [.attention, .shadow, .completed, .mem, .lineList,
      .stationImages, .slots, .channels] s
      (startTest s) := by
  dsimp only [startTest]
  repeat'
    first
    | with_reducible apply Keeps.refl
    | ((with_reducible apply Keeps.after (startTestWithin_keeps ..)); rfl)

theorem mergeCall_keeps (i : Fin 16) (c : SlotRecord) (s : State) :
    Keeps [.slots] s (mergeCall i c s) :=
  setSlot_keeps ..

theorem nextCallArrival_keeps (s : State) (n : Word) :
    Keeps [.callUnit] s { s with callUnit := { s.callUnit with nextArrival := n } } :=
  .quiet
    (fun p hp => by
      cases p <;>
        first | (refine absurd ?_ hp; decide) | exact rfl | exact ⟨rfl, rfl⟩ | exact fun _ => rfl)
    rfl rfl rfl

theorem fillSlot_keeps (i : Fin 16) (c : SlotRecord) (s : State) :
    Keeps [.slots, .callUnit] s (fillSlot i c s) :=
  .after (setSlot_keeps ..) rfl (.after (nextCallArrival_keeps s _) rfl (.refl _ _))

theorem enterCall_keeps (c : SlotRecord) (s : State) :
    Keeps [.attention, .shadow, .completed, .mem, .slots, .channels, .callUnit] s (enterCall c s).2 := by
  dsimp only [enterCall]
  repeat'
    first
    | with_reducible apply Keeps.refl
    | ((with_reducible apply Keeps.after (fillSlot_keeps ..)); rfl)
    | ((with_reducible apply Keeps.after (mergeCall_keeps ..)); rfl)
    | ((with_reducible apply Keeps.after (endCall_keeps ..)); rfl)
    | split

theorem cutInZone_keeps (z : Fin 8) (s : State) :
    Keeps [.attention, .shadow, .completed, .mem, .lineList, .stationImages, .slots, .channels] s (cutInZone z s) := by
  dsimp only [cutInZone]
  repeat'
    first
    | with_reducible apply Keeps.refl
    | ((with_reducible apply Keeps.after (stopChannel_keeps ..)); rfl)
    | ((with_reducible apply Keeps.after (setSlot_keeps ..)); rfl)
    | ((with_reducible apply Keeps.after (endCall_keeps ..)); rfl)
    | ((with_reducible apply Keeps.after (judgeRepeat_keeps ..)); rfl)
    | split

theorem takeSealingNotice_keeps (z : Fin 8) (s : State) :
    Keeps [.attention, .shadow, .completed, .mem, .lineList, .stationImages, .slots, .channels, .callUnit] s (takeSealingNotice z s) := by
  dsimp only [takeSealingNotice]
  repeat'
    first
    | with_reducible apply Keeps.refl
    | ((with_reducible apply Keeps.after (startTest_keeps ..)); rfl)
    | ((with_reducible apply Keeps.after (enterCall_keeps ..)); rfl)
    | ((with_reducible apply Keeps.after (cutInZone_keeps ..)); rfl)
    | ((with_reducible apply Keeps.after (setZoneCopy_keeps ..)); rfl)
    | split

theorem settleSealingNotice_keeps (z : Fin 8) (s : State) :
    Keeps [.attention, .shadow, .completed,
      .mem, .lineList, .stationImages, .slots, .channels, .callUnit, .handovers] s
      (settleSealingNotice z s) := by
  dsimp only [settleSealingNotice]
  repeat'
    first
    | with_reducible apply Keeps.refl
    | ((with_reducible apply Keeps.after (takeSealingNotice_keeps ..)); rfl)
    | ((with_reducible apply Keeps.after (dropHandover_keeps ..)); rfl)
    | split

theorem reportZoneState_keeps (z : Fin 8) (st : ZoneState) (s : State) :
    Keeps [.attention,
      .shadow, .completed, .mem, .lineList, .stationImages, .slots, .channels, .callUnit, .handovers] s
      (reportZoneState z st s) := by
  dsimp only [reportZoneState]
  repeat'
    first
    | with_reducible apply Keeps.refl
    | ((with_reducible apply Keeps.after (startTest_keeps ..)); rfl)
    | ((with_reducible apply Keeps.after (setZoneCopy_keeps ..)); rfl)
    | ((with_reducible apply Keeps.after (settleSealingNotice_keeps ..)); rfl)

theorem silenceChannel_keeps (z : Fin 8) (c : CallContribution) (urgent : Bool) (s : State) :
    Keeps [
      .attention, .shadow, .completed, .mem, .lineList, .stationImages, .slots, .channels] s
      (silenceChannel z c urgent s) := by
  unfold silenceChannel
  split
  · exact .after (startTest_keeps ..) rfl (.after (judgeRepeat_keeps ..) rfl
      (.after (giveContribution_keeps ..) rfl (.after (setChannel_keeps _ _ _ rfl) rfl
        (.after (setSlot_keeps ..) rfl (.refl _ _)))))
  · exact .refl _ _

theorem callDelivery_keeps (i : Fin 48) (image : BitVec 32) (s : State) :
    Keeps [.channels] s
      (callDelivery i image s) := by
  dsimp only [callDelivery]
  repeat'
    first
    | with_reducible apply Keeps.refl
    | ((with_reducible apply Keeps.afterForList); on_goal 2 => intro i u)
    | ((with_reducible refine Keeps.after (setChannel_keeps _ _ _ ?_) ?_ ?_); rfl; rfl)
    | split

theorem callCount_keeps (i : Fin 48) (count : Byte) (s : State) :
    Keeps [.attention, .shadow,
      .completed, .mem, .lineList, .stationImages, .slots, .channels] s
      (callCount i count s) := by
  unfold callCount
  refine .afterForList (.refl _ _) fun z u => ?_
  dsimp only
  split
  · split
    · exact .after (startTest_keeps ..) rfl (.after (judgeRepeat_keeps ..) rfl
        (.after (giveContribution_keeps ..) rfl (.after (setChannel_keeps _ _ _ rfl) rfl (.refl _ _))))
    · exact .refl _ _
  · exact .refl _ _

theorem callLoss_keeps (i : Fin 48) (s : State) :
    Keeps [.attention, .shadow, .completed, .mem,
      .lineList, .stationImages, .slots, .channels] s
      (callLoss i s) := by
  dsimp only [callLoss]
  repeat'
    first
    | with_reducible apply Keeps.refl
    | ((with_reducible apply Keeps.after (silenceChannel_keeps ..)); rfl)
    | ((with_reducible apply Keeps.afterForList); on_goal 2 => intro i u)

theorem silenceChanged_keeps (before : Tables) (z : Fin 8) (s : State) :
    Keeps [.slots, .channels] s
      (silenceChanged before z s) := by
  unfold silenceChanged
  split
  · split
    · exact .after (setChannel_keeps _ _ _ rfl) rfl (.after (setSlot_keeps ..) rfl (.refl _ _))
    · exact .refl _ _
  · exact .refl _ _

theorem callAdoptZones_keeps (before : Tables) (s : State) :
    Keeps [.attention, .shadow, .completed, .mem, .lineList, .stationImages, .slots, .channels] s
      (callAdoptZones before s) :=
  .after (startTest_keeps ..) rfl
    (.afterForEach
      (.afterForEach (.refl _ _) fun _ _ => .after (silenceChanged_keeps ..) rfl (.refl _ _))
      fun _ _ => .after (judgeRepeat_keeps ..) rfl (.refl _ _))

theorem clearSlots_keeps (s : State) (l : Vector SlotRecord 16) (u : CallUnit) :
    Keeps [.slots, .callUnit] s
      (noteChanged ((List.finRange 16).map .slot) s { s with slots := l, callUnit := u }) :=
  .noting
    (fun p hp => by
      cases p <;>
        first | (refine absurd ?_ hp; decide) | exact rfl | exact ⟨rfl, rfl⟩ | exact fun _ => rfl)
    rfl rfl rfl rfl (fun id hi => by cases id <;> first
      | exact absurd (List.mem_map_of_mem (List.mem_finRange _)) hi
      | rfl)

/-- The channels' contributions go with a reset: the images follow once they are recomposed. -/
theorem resetCalls_touches (s : State) :
    Touches [.slots, .channels, .callUnit] s (resetCalls s) :=
  .trans ((clearSlots_keeps s _ _).touches rfl)
    (.forEach fun z u => (setChannel_touches z _ u).mono rfl)

theorem concludeSeal_keeps (z : Fin 8) (st : ZoneState) (s : State) :
    Keeps [.attention, .shadow,
      .completed, .mem, .lineList, .stationImages, .zones, .slots, .channels, .callUnit, .handovers] s
      (concludeSeal z st s) := by
  dsimp only [concludeSeal]
  repeat'
    first
    | with_reducible apply Keeps.refl
    | ((with_reducible apply Keeps.after (setZone_keeps ..)); rfl)
    | ((with_reducible apply Keeps.after (endCardOf_keeps ..)); rfl)
    | ((with_reducible apply Keeps.after (reportZoneState_keeps ..)); rfl)
    | split

theorem judgeSeal_keeps (z : Fin 8) (s : State) :
    Keeps [.attention, .shadow, .completed, .mem,
      .lineList, .stationImages, .zones, .slots, .channels, .callUnit, .handovers] s
      (judgeSeal z s) := by
  dsimp only [judgeSeal]
  repeat'
    first
    | with_reducible apply Keeps.refl
    | ((with_reducible apply Keeps.after (concludeSeal_keeps ..)); rfl)
    | split

theorem reportDoorState_keeps (d : Fin 32) (s : State) :
    Keeps [.attention, .shadow, .completed,
      .mem, .lineList, .stationImages, .zones, .slots, .channels, .callUnit, .handovers] s
      (reportDoorState d s) := by
  dsimp only [reportDoorState]
  repeat'
    first
    | with_reducible apply Keeps.refl
    | ((with_reducible apply Keeps.after (judgeSeal_keeps ..)); rfl)
    | ((with_reducible apply Keeps.after (setZone_keeps ..)); rfl)
    | split

theorem reportDoorEnd_keeps (d : Fin 32) (o : OrderOutcome) (s : State) :
    Keeps [.zones] s
      (reportDoorEnd d o s) := by
  dsimp only [reportDoorEnd]
  repeat'
    first
    | with_reducible apply Keeps.refl
    | ((with_reducible apply Keeps.after (setZone_keeps ..)); rfl)
    | split

theorem takeDemandsCleared_keeps (s : State) :
    Keeps [.attention, .shadow, .completed, .mem,
      .lineList, .stationImages, .zones, .slots, .channels, .callUnit, .handovers] s
      (takeDemandsCleared s) := by
  dsimp only [takeDemandsCleared]
  repeat'
    first
    | with_reducible apply Keeps.refl
    | ((with_reducible apply Keeps.after (judgeSeal_keeps ..)); rfl)
    | ((with_reducible apply Keeps.after (handOver_keeps ..)); rfl)
    | ((with_reducible apply Keeps.after (setZone_keeps ..)); rfl)
    | ((with_reducible apply Keeps.afterForEach); on_goal 2 => intro i u)
    | split

theorem giveStarts_keeps (n : Nat) (a : Fin 8) (s : State) :
    Keeps [.zones, .handovers] s
      (giveStarts n a s) := by
  induction n generalizing a s with
  | zero => exact Keeps.refl _ _
  | succ n ih =>
    dsimp only [giveStarts]
    repeat'
      first
      | with_reducible apply Keeps.refl
      | ((with_reducible apply Keeps.after (ih ..)); rfl)
      | ((with_reducible apply Keeps.after (handOver_keeps ..)); rfl)
      | ((with_reducible apply Keeps.after (setZone_keeps ..)); rfl)
      | split

theorem askStart_keeps (d : Fin 32) (s : State) : Keeps [.zones] s (askStart d s) := by
  dsimp only [askStart]
  split
  · exact setZone_keeps ..
  · exact .refl _ _

theorem giveAllStarts_keeps (s : State) : Keeps [.zones, .handovers] s (giveAllStarts s) :=
  .forEach fun _ _ => giveStarts_keeps ..

theorem staggerOver_keeps (z : Fin 8) (s : State) :
    Keeps [.zones, .handovers] s
      (staggerOver z s) := by
  dsimp only [staggerOver]
  repeat'
    first
    | with_reducible apply Keeps.refl
    | ((with_reducible apply Keeps.after (giveStarts_keeps ..)); rfl)
    | ((with_reducible apply Keeps.after (setZone_keeps ..)); rfl)

theorem enterSealing_keeps (z : Fin 8) (cause : SealCause) (card : Option CardId) (s : State) :
    Keeps [
      .zones, .handovers] s
      (enterSealing z cause card s) := by
  dsimp only [enterSealing]
  repeat'
    first
    | with_reducible apply Keeps.refl
    | ((with_reducible apply Keeps.after (setZone_keeps ..)); rfl)
    | ((with_reducible apply Keeps.after (handOver_keeps ..)); rfl)

theorem alertOver_keeps (z : Fin 8) (s : State) :
    Keeps [.zones, .handovers] s
      (alertOver z s) := by
  dsimp only [alertOver]
  repeat'
    first
    | with_reducible apply Keeps.refl
    | ((with_reducible apply Keeps.after (setZone_keeps ..)); rfl)
    | ((with_reducible apply Keeps.after (enterSealing_keeps ..)); rfl)
    | split

theorem startAlertTimer_keeps (z : Fin 8) (s : State) :
    Keeps [.zones, .handovers] s
      (startAlertTimer z s) := by
  dsimp only [startAlertTimer]
  repeat'
    first
    | with_reducible apply Keeps.refl
    | ((with_reducible apply Keeps.after (alertOver_keeps ..)); rfl)
    | ((with_reducible apply Keeps.after (setZone_keeps ..)); rfl)
    | split

theorem enterAlert_keeps (z : Fin 8) (s : State) :
    Keeps [.attention, .shadow, .completed, .mem,
      .lineList, .stationImages, .zones, .slots, .channels, .callUnit, .handovers] s
      (enterAlert z s) := by
  dsimp only [enterAlert]
  repeat'
    first
    | with_reducible apply Keeps.refl
    | ((with_reducible apply Keeps.after (startAlertTimer_keeps ..)); rfl)
    | ((with_reducible apply Keeps.after (reportZoneState_keeps ..)); rfl)
    | ((with_reducible apply Keeps.after (setZone_keeps ..)); rfl)

theorem judgeAlarm_keeps (z : Fin 8) (s : State) :
    Keeps [.attention, .shadow, .completed, .mem,
      .lineList, .stationImages, .zones, .slots, .channels, .callUnit, .handovers] s
      (judgeAlarm z s) := by
  dsimp only [judgeAlarm]
  repeat'
    first
    | with_reducible apply Keeps.refl
    | ((with_reducible apply Keeps.after (setZone_keeps ..)); rfl)
    | ((with_reducible apply Keeps.after (enterAlert_keeps ..)); rfl)
    | ((with_reducible apply Keeps.after (startAlertTimer_keeps ..)); rfl)
    | split

end Sys2Proof.Machine
end

