-- ==== Sys2Proof/Laws/KeepsDoors.lean ====
section
/-! SUPPORT. What the operations of the door unit may touch, one lemma for each (`Keeps`). -/

namespace Sys2Proof.Machine

-- One theorem at a time: many at once take much memory.
set_option Elab.async false

theorem setDoor_keeps (d : Fin 32) (r : DoorRecord) (s : State) :
    Keeps [.attention, .shadow,
      .completed, .mem, .lineList, .stationImages, .packs, .ramps, .doors, .zones, .slots, .channels,
      .callUnit, .handovers] s
      (setDoor d r s) := by
  dsimp only [setDoor]
  repeat'
    first
    | with_reducible apply Keeps.refl
    | ((with_reducible apply Keeps.after (setDoor_contribute ..)); rfl)
    | ((with_reducible apply Keeps.after (gateLeftOpen_keeps ..)); rfl)
    | ((with_reducible apply Keeps.after (reportDoorState_keeps ..)); rfl)
    | split

theorem startMove_keeps (d : Fin 32) (s : State) :
    Keeps [.attention, .shadow, .completed, .mem,
      .lineList, .stationImages, .packs, .ramps, .doors, .zones, .slots, .channels, .callUnit,
      .handovers] s
      (startMove d s) := by
  dsimp only [startMove]
  repeat'
    first
    | with_reducible apply Keeps.refl
    | ((with_reducible apply Keeps.after (setDoor_keeps ..)); rfl)
    | split

theorem startQueued_keeps (n : Nat) (a : Fin 2) (s : State) :
    Keeps [.attention, .shadow,
      .completed, .mem, .lineList, .stationImages, .packs, .ramps, .doors, .zones, .slots, .channels,
      .callUnit, .handovers] s
      (startQueued n a s) := by
  induction n generalizing a s with
  | zero => exact Keeps.refl _ _
  | succ n ih =>
    dsimp only [startQueued]
    repeat'
      first
      | with_reducible apply Keeps.refl
      | ((with_reducible apply Keeps.after (ih ..)); rfl)
      | ((with_reducible apply Keeps.after (startMove_keeps ..)); rfl)
      | split

theorem actOnPack_keeps (p : Fin 2) (s : State) :
    Keeps [.attention, .shadow, .completed, .mem,
      .lineList, .stationImages, .packs, .ramps, .doors, .doorUnit, .zones, .slots, .channels,
      .callUnit, .handovers] s
      (actOnPack p s) := by
  dsimp only [actOnPack]
  repeat'
    first
    | with_reducible apply Keeps.refl
    | ((with_reducible apply Keeps.after (requestPack_keeps ..)); rfl)
    | ((with_reducible apply Keeps.after (setRelation_keeps ..)); rfl)
    | ((with_reducible apply Keeps.after (withdraw_keeps ..)); rfl)
    | ((with_reducible apply Keeps.after (startQueued_keeps ..)); rfl)
    | ((with_reducible apply Keeps.after (releasePack_keeps ..)); rfl)
    | split

theorem actOnPacks_keeps (s : State) :
    Keeps [.attention, .shadow, .completed, .mem, .lineList,
      .stationImages, .packs, .ramps, .doors, .doorUnit, .zones, .slots, .channels, .callUnit,
      .handovers] s
      (actOnPacks s) := by
  dsimp only [actOnPacks]
  repeat'
    first
    | with_reducible apply Keeps.refl
    | ((with_reducible apply Keeps.after (actOnPack_keeps ..)); rfl)

theorem endDoorEvent_keeps (s : State) :
    Keeps [.attention, .shadow, .completed, .mem, .lineList,
      .stationImages, .packs, .ramps, .doors, .doorUnit, .zones, .slots, .channels, .callUnit,
      .handovers] s
      (endDoorEvent s) :=
  .after (actOnPacks_keeps _) rfl (.after (giveAllStarts_keeps s) rfl (.refl _ _))

theorem stopPackWaits_keeps (p : Fin 2) (s : State) :
    Keeps [.attention, .shadow, .completed, .mem,
      .lineList, .stationImages, .packs, .ramps, .doors, .zones, .slots, .channels, .callUnit,
      .handovers] s
      (stopPackWaits p s) := by
  dsimp only [stopPackWaits]
  repeat'
    first
    | with_reducible apply Keeps.refl
    | ((with_reducible apply Keeps.after (setDoor_keeps ..)); rfl)
    | ((with_reducible apply Keeps.afterForList); on_goal 2 => intro i u)

theorem takeDoorGrant_keeps (p : Fin 2) (s : State) :
    Keeps [.attention, .shadow, .completed, .mem,
      .lineList, .stationImages, .packs, .ramps, .doors, .doorUnit, .zones, .slots, .channels,
      .callUnit, .handovers] s
      (takeDoorGrant p s) := by
  dsimp only [takeDoorGrant]
  repeat'
    first
    | with_reducible apply Keeps.refl
    | ((with_reducible apply Keeps.after (actOnPack_keeps ..)); rfl)
    | ((with_reducible apply Keeps.after (stopPackWaits_keeps ..)); rfl)
    | ((with_reducible apply Keeps.after (setRelation_keeps ..)); rfl)
    | ((with_reducible apply Keeps.after (releasePack_keeps ..)); rfl)
    | split

theorem enterWaiting_keeps (d : Fin 32) (r : DoorRecord) (s : State) :
    Keeps [.attention, .shadow,
      .completed, .mem, .lineList, .stationImages, .packs, .ramps, .doors, .zones, .slots, .channels,
      .callUnit, .handovers] s
      (enterWaiting d r s) := by
  dsimp only [enterWaiting]
  repeat'
    first
    | with_reducible apply Keeps.refl
    | ((with_reducible apply Keeps.after (setDoor_keeps ..)); rfl)
    | split

theorem doorsPackFailed_keeps (p : Fin 2) (s : State) :
    Keeps [.attention, .shadow, .completed,
      .mem, .lineList, .stationImages, .packs, .ramps, .doors, .doorUnit, .zones, .slots, .channels,
      .callUnit, .handovers] s
      (doorsPackFailed p s) := by
  dsimp only [doorsPackFailed]
  repeat'
    first
    | with_reducible apply Keeps.refl
    | ((with_reducible apply Keeps.after (enterWaiting_keeps ..)); rfl)
    | ((with_reducible apply Keeps.after (setRelation_keeps ..)); rfl)
    | ((with_reducible apply Keeps.after (setDoor_keeps ..)); rfl)
    | ((with_reducible apply Keeps.after (actOnPack_keeps ..)); rfl)
    | ((with_reducible apply Keeps.afterForList); on_goal 2 => intro i u)
    | split

theorem endOperation_keeps (d : Fin 32) (r : DoorRecord) (o : OrderOutcome) (detail : Nat) (s : State) :
    Keeps [
      .attention, .shadow, .completed, .mem, .lineList, .stationImages, .packs, .ramps, .doors, .zones,
      .slots, .channels, .callUnit, .handovers] s
      (endOperation d r o detail s) := by
  dsimp only [endOperation]
  repeat'
    first
    | with_reducible apply Keeps.refl
    | ((with_reducible apply Keeps.after (reportDoorEnd_keeps ..)); rfl)
    | ((with_reducible apply Keeps.after (setDoor_keeps ..)); rfl)
    | ((with_reducible apply Keeps.after (endCardOf_keeps ..)); rfl)
    | split

theorem makeStart_keeps (d : Fin 32) (s : State) :
    Keeps [.attention, .shadow, .completed, .mem,
      .lineList, .stationImages, .packs, .ramps, .doors, .zones, .slots, .channels, .callUnit,
      .handovers] s
      (makeStart d s) := by
  dsimp only [makeStart]
  repeat'
    first
    | with_reducible apply Keeps.refl
    | ((with_reducible apply Keeps.after (enterWaiting_keeps ..)); rfl)
    | ((with_reducible apply Keeps.after (setDoor_keeps ..)); rfl)
    | split

theorem warningRun_keeps (d : Fin 32) (s : State) :
    Keeps [.attention, .shadow, .completed, .mem,
      .lineList, .stationImages, .packs, .ramps, .doors, .zones, .slots, .channels, .callUnit,
      .handovers] s
      (warningRun d s) := by
  dsimp only [warningRun]
  repeat'
    first
    | with_reducible apply Keeps.refl
    | ((with_reducible apply Keeps.after (askStart_keeps ..)); rfl)
    | ((with_reducible apply Keeps.after (setDoor_keeps ..)); rfl)
    | ((with_reducible apply Keeps.after (makeStart_keeps ..)); rfl)
    | split

theorem beginClose_keeps (d : Fin 32) (r : DoorRecord) (s : State) :
    Keeps [.attention, .shadow,
      .completed, .mem, .lineList, .stationImages, .packs, .ramps, .doors, .zones, .slots, .channels,
      .callUnit, .handovers] s
      (beginClose d r s) := by
  dsimp only [beginClose]
  repeat'
    first
    | with_reducible apply Keeps.refl
    | ((with_reducible apply Keeps.after (setDoor_keeps ..)); rfl)
    | ((with_reducible apply Keeps.after (warningRun_keeps ..)); rfl)
    | split

theorem closeOrDefer_keeps (d : Fin 32) (r : DoorRecord) (s : State) :
    Keeps [.attention, .shadow,
      .completed, .mem, .lineList, .stationImages, .packs, .ramps, .doors, .zones, .slots, .channels,
      .callUnit, .handovers] s
      (closeOrDefer d r s) := by
  dsimp only [closeOrDefer]
  repeat'
    first
    | with_reducible apply Keeps.refl
    | ((with_reducible apply Keeps.after (setDoor_keeps ..)); rfl)
    | ((with_reducible apply Keeps.after (beginClose_keeps ..)); rfl)
    | split

theorem restOrReclose_keeps (d : Fin 32) (r : DoorRecord) (s : State) :
    Keeps [.attention, .shadow,
      .completed, .mem, .lineList, .stationImages, .packs, .ramps, .doors, .zones, .slots, .channels,
      .callUnit, .handovers] s
      (restOrReclose d r s) := by
  dsimp only [restOrReclose]
  repeat'
    first
    | with_reducible apply Keeps.refl
    | ((with_reducible apply Keeps.after (closeOrDefer_keeps ..)); rfl)
    | ((with_reducible apply Keeps.after (setDoor_keeps ..)); rfl)
    | split

theorem takeStart_keeps (d : Fin 32) (s : State) :
    Keeps [.attention, .shadow, .completed, .mem,
      .lineList, .stationImages, .packs, .ramps, .doors, .doorUnit, .zones, .slots, .channels,
      .callUnit, .handovers] s
      (takeStart d s) := by
  dsimp only [takeStart]
  repeat'
    first
    | with_reducible apply Keeps.refl
    | ((with_reducible apply Keeps.after (endDoorEvent_keeps ..)); rfl)
    | ((with_reducible apply Keeps.after (makeStart_keeps ..)); rfl)
    | split

theorem obstruct_keeps (d : Fin 32) (r : DoorRecord) (s : State) :
    Keeps [.attention, .shadow,
      .completed, .mem, .lineList, .stationImages, .packs, .ramps, .doors, .zones, .slots, .channels,
      .callUnit, .handovers] s
      (obstruct d r s) := by
  dsimp only [obstruct]
  repeat'
    first
    | with_reducible apply Keeps.refl
    | ((with_reducible apply Keeps.after (endOperation_keeps ..)); rfl)
    | ((with_reducible apply Keeps.after (setDoor_keeps ..)); rfl)
    | split

theorem judgeRetry_keeps (d : Fin 32) (s : State) :
    Keeps [.attention, .shadow, .completed, .mem,
      .lineList, .stationImages, .packs, .ramps, .doors, .zones, .slots, .channels, .callUnit,
      .handovers] s
      (judgeRetry d s) := by
  dsimp only [judgeRetry]
  repeat'
    first
    | with_reducible apply Keeps.refl
    | ((with_reducible apply Keeps.after (endOperation_keeps ..)); rfl)
    | ((with_reducible apply Keeps.after (enterWaiting_keeps ..)); rfl)
    | split

theorem doorInputsTaken_keeps (d : Fin 32) (r : DoorRecord) (s : State) :
    Keeps [.attention,
      .shadow, .completed, .mem, .lineList, .stationImages, .packs, .ramps, .doors, .zones, .slots,
      .channels, .callUnit, .handovers] s
      (doorInputsTaken d r s) := by
  dsimp only [doorInputsTaken]
  repeat'
    first
    | with_reducible apply Keeps.refl
    | ((with_reducible apply Keeps.after (restOrReclose_keeps ..)); rfl)
    | ((with_reducible apply Keeps.after (setDoor_keeps ..)); rfl)
    | ((with_reducible apply Keeps.after (endOperation_keeps ..)); rfl)
    | ((with_reducible apply Keeps.after (obstruct_keeps ..)); rfl)
    | ((with_reducible apply Keeps.after (judgeRetry_keeps ..)); rfl)
    | split

theorem doorChange_keeps (d : Fin 32) (image changed : Word) (s : State) :
    Keeps [.attention,
      .shadow, .completed, .mem, .lineList, .stationImages, .packs, .ramps, .doors, .zones, .slots,
      .channels, .callUnit, .handovers] s
      (doorChange d image changed s) := by
  dsimp only [doorChange]
  repeat'
    first
    | with_reducible apply Keeps.refl
    | ((with_reducible apply Keeps.after (doorInputsTaken_keeps ..)); rfl)
    | split

theorem doorFirst_keeps (d : Fin 32) (image : Word) (s : State) :
    Keeps [.attention, .shadow,
      .completed, .mem, .lineList, .stationImages, .packs, .ramps, .doors, .zones, .slots, .channels,
      .callUnit, .handovers] s
      (doorFirst d image s) := by
  dsimp only [doorFirst]
  repeat'
    first
    | with_reducible apply Keeps.refl
    | ((with_reducible apply Keeps.after (restOrReclose_keeps ..)); rfl)
    | ((with_reducible apply Keeps.after (doorInputsTaken_keeps ..)); rfl)
    | split

theorem doorsChange_keeps (i : Fin 48) (image changed : Word) (s : State) :
    Keeps [.attention,
      .shadow, .completed, .mem, .lineList, .stationImages, .packs, .ramps, .doors, .doorUnit, .zones,
      .slots, .channels, .callUnit, .handovers] s
      (doorsChange i image changed s) := by
  dsimp only [doorsChange]
  repeat'
    first
    | with_reducible apply Keeps.refl
    | ((with_reducible apply Keeps.after (endDoorEvent_keeps ..)); rfl)
    | ((with_reducible apply Keeps.after (doorChange_keeps ..)); rfl)
    | ((with_reducible apply Keeps.afterForList); on_goal 2 => intro i u)

theorem doorsFirst_keeps (i : Fin 48) (image : Word) (s : State) :
    Keeps [.attention, .shadow,
      .completed, .mem, .lineList, .stationImages, .packs, .ramps, .doors, .doorUnit, .zones, .slots,
      .channels, .callUnit, .handovers] s
      (doorsFirst i image s) := by
  dsimp only [doorsFirst]
  repeat'
    first
    | with_reducible apply Keeps.refl
    | ((with_reducible apply Keeps.after (endDoorEvent_keeps ..)); rfl)
    | ((with_reducible apply Keeps.after (doorFirst_keeps ..)); rfl)
    | ((with_reducible apply Keeps.afterForList); on_goal 2 => intro i u)

theorem doorLoss_keeps (i : Fin 48) (d : Fin 32) (s : State) :
    Keeps [.attention, .shadow,
      .completed, .mem, .lineList, .stationImages, .packs, .ramps, .doors, .zones, .slots, .channels,
      .callUnit, .handovers] s
      (doorLoss i d s) := by
  dsimp only [doorLoss]
  repeat'
    first
    | with_reducible apply Keeps.refl
    | ((with_reducible apply Keeps.after (setDoor_keeps ..)); rfl)
    | ((with_reducible apply Keeps.after (endOperation_keeps ..)); rfl)
    | split

theorem doorsLoss_keeps (i : Fin 48) (s : State) :
    Keeps [.attention, .shadow, .completed, .mem,
      .lineList, .stationImages, .packs, .ramps, .doors, .doorUnit, .zones, .slots, .channels,
      .callUnit, .handovers] s
      (doorsLoss i s) := by
  dsimp only [doorsLoss]
  repeat'
    first
    | with_reducible apply Keeps.refl
    | ((with_reducible apply Keeps.after (endDoorEvent_keeps ..)); rfl)
    | ((with_reducible apply Keeps.after (doorLoss_keeps ..)); rfl)
    | ((with_reducible apply Keeps.afterForList); on_goal 2 => intro i u)

theorem endDeferral_keeps (d : Fin 32) (s : State) :
    Keeps [.attention, .shadow, .completed, .mem,
      .lineList, .stationImages, .packs, .ramps, .doors, .zones, .slots, .channels, .callUnit,
      .handovers] s
      (endDeferral d s) := by
  dsimp only [endDeferral]
  repeat'
    first
    | with_reducible apply Keeps.refl
    | ((with_reducible apply Keeps.after (beginClose_keeps ..)); rfl)
    | ((with_reducible apply Keeps.after (setDoor_keeps ..)); rfl)
    | split

theorem stopGateClose_keeps (d : Fin 32) (s : State) :
    Keeps [.attention, .shadow, .completed,
      .mem, .lineList, .stationImages, .packs, .ramps, .doors, .zones, .slots, .channels, .callUnit,
      .handovers] s
      (stopGateClose d s) := by
  dsimp only [stopGateClose]
  repeat'
    first
    | with_reducible apply Keeps.refl
    | ((with_reducible apply Keeps.after (setDoor_keeps ..)); rfl)
    | ((with_reducible apply Keeps.after (endOperation_keeps ..)); rfl)
    | split

theorem takeRampStowed_keeps (r : Fin 4) (stowed : Bool) (s : State) :
    Keeps [.attention, .shadow,
      .completed, .mem, .lineList, .stationImages, .packs, .ramps, .doors, .doorUnit, .zones, .slots,
      .channels, .callUnit, .handovers] s
      (takeRampStowed r stowed s) := by
  dsimp only [takeRampStowed]
  repeat'
    first
    | with_reducible apply Keeps.refl
    | ((with_reducible apply Keeps.after (setRampStowed_keeps ..)); rfl)
    | ((with_reducible apply Keeps.after (endDoorEvent_keeps ..)); rfl)
    | ((with_reducible apply Keeps.after (endDeferral_keeps ..)); rfl)
    | ((with_reducible apply Keeps.after (stopGateClose_keeps ..)); rfl)
    | ((with_reducible apply Keeps.afterForList); on_goal 2 => intro i u)
    | split

theorem cutDoorCard_keeps (d : Fin 32) (z : Fin 8) (s : State) :
    Keeps [.attention, .shadow,
      .completed, .mem, .doors] s
      (cutDoorCard d z s) := by
  dsimp only [cutDoorCard]
  repeat'
    first
    | with_reducible apply Keeps.refl
    | ((with_reducible apply Keeps.after (endCard_keeps ..)); rfl)
    | ((with_reducible refine Keeps.after (putDoor_keeps _ _ _ ?_) ?_ ?_); rfl; rfl)
    | split

theorem takeDemand_keeps (z : Fin 8) (d : Fin 32) (s : State) :
    Keeps [.attention, .shadow,
      .completed, .mem, .lineList, .stationImages, .packs, .ramps, .doors, .zones, .slots, .channels,
      .callUnit, .handovers] s
      (takeDemand z d s) := by
  dsimp only [takeDemand]
  repeat'
    first
    | with_reducible apply Keeps.refl
    | ((with_reducible apply Keeps.after (setDoor_keeps ..)); rfl)
    | ((with_reducible apply Keeps.after (cutDoorCard_keeps ..)); rfl)
    | ((with_reducible apply Keeps.after (closeOrDefer_keeps ..)); rfl)
    | ((with_reducible apply Keeps.after (beginClose_keeps ..)); rfl)
    | split

theorem takeDemandWithdrawal_keeps (d : Fin 32) (s : State) :
    Keeps [.attention, .shadow,
      .completed, .mem, .lineList, .stationImages, .packs, .ramps, .doors, .zones, .slots, .channels,
      .callUnit, .handovers] s
      (takeDemandWithdrawal d s) := by
  dsimp only [takeDemandWithdrawal]
  repeat'
    first
    | with_reducible apply Keeps.refl
    | ((with_reducible apply Keeps.after (reportDoorEnd_keeps ..)); rfl)
    | ((with_reducible apply Keeps.after (setDoor_keeps ..)); rfl)
    | split

theorem doorsDeckStop_keeps (s : State) :
    Keeps [.attention, .shadow, .completed, .mem, .lineList,
      .stationImages, .packs, .ramps, .doors, .doorUnit, .zones, .slots, .channels, .callUnit,
      .handovers] s
      (doorsDeckStop s) := by
  dsimp only [doorsDeckStop]
  repeat'
    first
    | with_reducible apply Keeps.refl
    | ((with_reducible apply Keeps.after (endDoorEvent_keeps ..)); rfl)
    | ((with_reducible apply Keeps.after (endOperation_keeps ..)); rfl)
    | ((with_reducible apply Keeps.afterForEach); on_goal 2 => intro i u)
    | split

theorem cancelDoor_keeps (d : Fin 32) (s : State) :
    Keeps [.attention, .shadow, .completed, .mem,
      .lineList, .stationImages, .packs, .ramps, .doors, .doorUnit, .zones, .slots, .channels,
      .callUnit, .handovers] s
      (cancelDoor d s) := by
  dsimp only [cancelDoor]
  repeat'
    first
    | with_reducible apply Keeps.refl
    | ((with_reducible apply Keeps.after (endDoorEvent_keeps ..)); rfl)
    | ((with_reducible apply Keeps.after (endOperation_keeps ..)); rfl)

theorem warningOver_keeps (d : Fin 32) (s : State) :
    Keeps [.attention, .shadow, .completed, .mem, .lineList,
      .stationImages, .packs, .ramps, .doors, .doorUnit, .zones, .slots, .channels, .callUnit,
      .handovers] s
      (warningOver d s) :=
  .after (endDoorEvent_keeps _) rfl (.afterForList (.refl _ _) fun _ _ =>
    .after (warningRun_keeps ..) rfl (.after (setDoor_keeps ..) rfl (.refl _ _)))

theorem motionOver_keeps (d : Fin 32) (s : State) :
    Keeps [.attention, .shadow, .completed, .mem,
      .lineList, .stationImages, .packs, .ramps, .doors, .doorUnit, .zones, .slots, .channels,
      .callUnit, .handovers] s
      (motionOver d s) := by
  dsimp only [motionOver]
  repeat'
    first
    | with_reducible apply Keeps.refl
    | ((with_reducible apply Keeps.after (endOperation_keeps ..)); rfl)
    | ((with_reducible apply Keeps.after (setDoor_keeps ..)); rfl)
    | ((with_reducible apply Keeps.after (endDoorEvent_keeps ..)); rfl)
    | split

theorem retryOver_keeps (d : Fin 32) (s : State) :
    Keeps [.attention, .shadow, .completed, .mem,
      .lineList, .stationImages, .packs, .ramps, .doors, .doorUnit, .zones, .slots, .channels,
      .callUnit, .handovers] s
      (retryOver d s) := by
  dsimp only [retryOver]
  repeat'
    first
    | with_reducible apply Keeps.refl
    | ((with_reducible apply Keeps.after (endDoorEvent_keeps ..)); rfl)
    | ((with_reducible apply Keeps.after (judgeRetry_keeps ..)); rfl)
    | ((with_reducible apply Keeps.after (setDoor_keeps ..)); rfl)

theorem packWaitOver_keeps (d : Fin 32) (s : State) :
    Keeps [.attention, .shadow, .completed, .mem,
      .lineList, .stationImages, .packs, .ramps, .doors, .doorUnit, .zones, .slots, .channels,
      .callUnit, .handovers] s
      (packWaitOver d s) := by
  dsimp only [packWaitOver]
  repeat'
    first
    | with_reducible apply Keeps.refl
    | ((with_reducible apply Keeps.after (endDoorEvent_keeps ..)); rfl)
    | ((with_reducible apply Keeps.after (endOperation_keeps ..)); rfl)
    | split

theorem supersedeDoor_keeps (d : Fin 32) (s : State) :
    Keeps [.attention, .shadow, .completed,
      .mem, .doors] s
      (supersedeDoor d s) := by
  dsimp only [supersedeDoor]
  repeat'
    first
    | with_reducible apply Keeps.refl
    | ((with_reducible apply Keeps.after (endCard_keeps ..)); rfl)
    | ((with_reducible refine Keeps.after (putDoor_keeps _ _ _ ?_) ?_ ?_); rfl; rfl)
    | split

theorem startDoorOpen_keeps (d : Fin 32) (c : CardId) (s : State) :
    Keeps [.attention, .shadow,
      .completed, .mem, .lineList, .stationImages, .packs, .ramps, .doors, .doorUnit, .zones, .slots,
      .channels, .callUnit, .handovers] s
      (startDoorOpen d c s) := by
  dsimp only [startDoorOpen]
  repeat'
    first
    | with_reducible apply Keeps.refl
    | ((with_reducible apply Keeps.after (supersedeDoor_keeps ..)); rfl)
    | ((with_reducible apply Keeps.after (advanceDoorArrival_keeps ..)); rfl)
    | ((with_reducible apply Keeps.after (enterWaiting_keeps ..)); rfl)
    | ((with_reducible apply Keeps.after (setDoor_keeps ..)); rfl)
    | ((with_reducible apply Keeps.after (endDoorEvent_keeps ..)); rfl)
    | split

theorem startDoorClose_keeps (d : Fin 32) (c : CardId) (s : State) :
    Keeps [.attention, .shadow,
      .completed, .mem, .lineList, .stationImages, .packs, .ramps, .doors, .doorUnit, .zones, .slots,
      .channels, .callUnit, .handovers] s
      (startDoorClose d c s) := by
  dsimp only [startDoorClose]
  repeat'
    first
    | with_reducible apply Keeps.refl
    | ((with_reducible apply Keeps.after (supersedeDoor_keeps ..)); rfl)
    | ((with_reducible apply Keeps.after (endDoorEvent_keeps ..)); rfl)
    | ((with_reducible apply Keeps.after (beginClose_keeps ..)); rfl)
    | ((with_reducible apply Keeps.after (advanceDoorArrival_keeps ..)); rfl)

theorem clearDoor_keeps (d : Fin 32) (s : State) :
    Keeps [.attention, .shadow, .completed, .mem,
      .lineList, .stationImages, .packs, .ramps, .doors, .doorUnit, .zones, .slots, .channels,
      .callUnit, .handovers] s
      (clearDoor d s) := by
  dsimp only [clearDoor]
  repeat'
    first
    | with_reducible apply Keeps.refl
    | ((with_reducible apply Keeps.after (endDoorEvent_keeps ..)); rfl)
    | ((with_reducible apply Keeps.after (restOrReclose_keeps ..)); rfl)

theorem freshDoors_touches (s : State) (l : Vector DoorRecord 32) (u : DoorUnit) :
    Touches [.doors, .doorUnit] s
      (noteChanged ((List.finRange 32).map .door) s { s with doors := l, doorUnit := u }) :=
  .noting
    (fun p hp => by
      cases p <;>
        first | (refine absurd ?_ hp; decide) | exact rfl | exact ⟨rfl, rfl⟩ | exact fun _ => rfl)
    rfl rfl rfl rfl (fun id hi => by
      cases id <;> first
        | exact absurd (List.mem_map_of_mem (List.mem_finRange _)) hi
        | rfl)

theorem adoptDoors_keeps (s : State) :
    Keeps [.attention, .shadow, .completed, .mem, .lineList, .stationImages, .packs, .ramps, .doors, .doorUnit, .zones, .slots, .channels, .callUnit, .handovers] s (adoptDoors s) := by
  unfold adoptDoors
  refine .after (takeDemandsCleared_keeps _) rfl ?_
  refine .afterForEach ?_ fun d u => ?_
  · exact ((freshDoors_touches s _ _).contributeKind .door (by decide) fun j hj =>
      composeImage_byKind rfl (fun _ => rfl) (fun _ => rfl) (fun hk => absurd hk hj) fun _ => rfl).mono rfl
  · split
    · exact .after (gateLeftOpen_keeps ..) rfl (.refl _ _)
    · exact .refl _ _

end Sys2Proof.Machine
end

