-- ==== Sys2Proof/Laws/KeepsRamps.lean ====
section
/-! SUPPORT. What the operations of the ramp unit and the pack arbiter's notices may touch, one lemma for each (`Keeps`). -/

namespace Sys2Proof.Machine

-- One theorem at a time: many at once take much memory.
set_option Elab.async false

theorem tellStowed_keeps (r : Fin 4) (s : State) :
    Keeps [.attention, .shadow, .completed, .mem,
      .lineList, .stationImages, .packs, .ramps, .doors, .doorUnit, .zones, .slots, .channels,
      .callUnit, .handovers] s
      (tellStowed r s) := by
  dsimp only [tellStowed]
  repeat'
    first
    | with_reducible apply Keeps.refl
    | ((with_reducible apply Keeps.after (takeRampStowed_keeps ..)); rfl)

theorem endProgram_keeps (r : Fin 4) (s : State) :
    Keeps [.attention, .shadow, .completed, .mem,
      .lineList, .stationImages, .packs, .ramps, .doors, .doorUnit, .zones, .slots, .channels,
      .callUnit, .handovers] s
      (endProgram r s) := by
  dsimp only [endProgram]
  repeat'
    first
    | with_reducible apply Keeps.refl
    | ((with_reducible apply Keeps.after (contributeValves_keeps ..)); rfl)
    | ((with_reducible apply Keeps.after (releasePack_keeps ..)); rfl)
    | ((with_reducible apply Keeps.after (tellStowed_keeps ..)); rfl)
    | ((with_reducible apply Keeps.after (endCardOf_keeps ..)); rfl)
    | ((with_reducible refine Keeps.after (setRamp_keeps _ _ _ ?_) ?_ ?_); rfl; rfl)
    | split

theorem enterStage_keeps (n : Nat) (a : Fin 4) (b : Nat) (s : State) :
    Keeps [.attention, .shadow,
      .completed, .mem, .lineList, .stationImages, .packs, .ramps, .doors, .doorUnit, .zones, .slots,
      .channels, .callUnit, .handovers] s
      (enterStage n a b s) := by
  induction n generalizing a b s with
  | zero => exact Keeps.refl _ _
  | succ n ih =>
    dsimp only [enterStage]
    repeat'
      first
      | with_reducible apply Keeps.refl
      | ((with_reducible apply Keeps.after (ih ..)); rfl)
      | ((with_reducible apply Keeps.after (contributeValves_keeps ..)); rfl)
      | ((with_reducible apply Keeps.after (endProgram_keeps ..)); rfl)
      | ((with_reducible refine Keeps.after (setRamp_keeps _ _ _ ?_) ?_ ?_); rfl; rfl)
      | split

theorem endStage_keeps (r : Fin 4) (s : State) :
    Keeps [.attention, .shadow, .completed, .mem,
      .lineList, .stationImages, .packs, .ramps, .doors, .doorUnit, .zones, .slots, .channels,
      .callUnit, .handovers] s
      (endStage r s) := by
  dsimp only [endStage]
  repeat'
    first
    | with_reducible apply Keeps.refl
    | ((with_reducible apply Keeps.after (endProgram_keeps ..)); rfl)
    | ((with_reducible apply Keeps.after (enterStage_keeps ..)); rfl)
    | split

theorem takeRampGrant_keeps (p : Fin 2) (r : Fin 4) (s : State) :
    Keeps [.attention, .shadow,
      .completed, .mem, .lineList, .stationImages, .packs, .ramps, .doors, .doorUnit, .zones, .slots,
      .channels, .callUnit, .handovers] s
      (takeRampGrant p r s) := by
  dsimp only [takeRampGrant]
  repeat'
    first
    | with_reducible apply Keeps.refl
    | ((with_reducible apply Keeps.after (enterStage_keeps ..)); rfl)
    | ((with_reducible apply Keeps.after (releasePack_keeps ..)); rfl)
    | split

theorem takePreemption_keeps (r : Fin 4) (s : State) :
    Keeps [.attention, .shadow, .completed,
      .mem, .lineList, .stationImages, .packs, .ramps, .handovers] s
      (takePreemption r s) := by
  dsimp only [takePreemption]
  repeat'
    first
    | with_reducible apply Keeps.refl
    | ((with_reducible apply Keeps.after (holdRamp_keeps ..)); rfl)
    | split

theorem markStageTests_keeps (r : Fin 4) (e : RampEntry) (target : Nat) (s : State) :
    Keeps [
      .attention, .shadow, .completed, .mem, .lineList, .stationImages, .packs, .ramps, .doors,
      .doorUnit, .zones, .slots, .channels, .callUnit, .handovers] s
      (markStageTests r e target s) := by
  dsimp only [markStageTests]
  repeat'
    first
    | with_reducible apply Keeps.refl
    | ((with_reducible apply Keeps.after (endStage_keeps ..)); rfl)
    | ((with_reducible refine Keeps.after (setRamp_keeps _ _ _ ?_) ?_ ?_); rfl; rfl)
    | split

theorem markArrival_keeps (r : Fin 4) (e : RampEntry) (rec_ : RampRecord) (position k : Nat) (s : State)
    (hv : rec_.valves = s.ramps[r].valves) :
    Keeps [
      .attention, .shadow, .completed, .mem, .lineList, .stationImages, .packs, .ramps, .doors,
      .doorUnit, .zones, .slots, .channels, .callUnit, .handovers] s
      (markArrival r e rec_ position k s) := by
  have h : Keeps [.ramps] s (setRamp r { rec_ with
    position := position, pace := rec_.pace.markArrival e k s.clock } s) := setRamp_keeps _ _ _ hv
  unfold markArrival
  dsimp only
  split
  · split
    · exact .after (markStageTests_keeps ..) rfl (h.mono rfl)
    · exact h.mono rfl
  · exact h.mono rfl

theorem rampReport_keeps (r : Fin 4) (count : Byte) (s : State) :
    Keeps [.attention, .shadow,
      .completed, .mem, .lineList, .stationImages, .packs, .ramps, .doors, .doorUnit, .zones, .slots,
      .channels, .callUnit, .handovers] s
      (rampReport r count s) := by
  unfold rampReport
  split
  · dsimp only
    split
    · split
      · exact .after (failRamp_keeps ..) rfl (.after (setRamp_keeps _ _ _ rfl) rfl (.refl _ _))
      · split
        · exact .after (markArrival_keeps _ _ _ _ _ _ (by rfl)) rfl (.refl _ _)
        · exact .after (setRamp_keeps _ _ _ (by rfl)) rfl (.refl _ _)
    · exact .after (setRamp_keeps _ _ _ (by rfl)) rfl (.refl _ _)
  · exact .refl _ _

theorem switchStageTest_keeps (r : Fin 4) (s : State) :
    Keeps [.attention, .shadow, .completed,
      .mem, .lineList, .stationImages, .packs, .ramps, .doors, .doorUnit, .zones, .slots, .channels,
      .callUnit, .handovers] s
      (switchStageTest r s) := by
  dsimp only [switchStageTest]
  repeat'
    first
    | with_reducible apply Keeps.refl
    | ((with_reducible apply Keeps.after (endStage_keeps ..)); rfl)
    | split

theorem restRamp_keeps (r : Fin 4) (s : State) :
    Keeps [.attention, .shadow, .completed, .mem,
      .lineList, .stationImages, .packs, .ramps, .doors, .doorUnit, .zones, .slots, .channels,
      .callUnit, .handovers] s
      (restRamp r s) := by
  dsimp only [restRamp]
  repeat'
    first
    | with_reducible apply Keeps.refl
    | ((with_reducible apply Keeps.after (tellStowed_keeps ..)); rfl)
    | ((with_reducible refine Keeps.after (setRamp_keeps _ _ _ ?_) ?_ ?_); rfl; rfl)
    | split

theorem rampChange_keeps (image : Word) (count : Byte) (r : Fin 4) (s : State) :
    Keeps [.attention,
      .shadow, .completed, .mem, .lineList, .stationImages, .packs, .ramps, .doors, .doorUnit, .zones,
      .slots, .channels, .callUnit, .handovers] s
      (rampChange image count r s) := by
  unfold rampChange
  exact .after (restRamp_keeps ..) rfl (.after (switchStageTest_keeps ..) rfl
    (.after (rampReport_keeps ..) rfl (.after (setRamp_keeps _ _ _ rfl) rfl (.refl _ _))))

theorem rampFirst_keeps (image : Word) (count : Byte) (r : Fin 4) (s : State) :
    Keeps [.attention,
      .shadow, .completed, .mem, .lineList, .stationImages, .packs, .ramps, .doors, .doorUnit, .zones,
      .slots, .channels, .callUnit, .handovers] s
      (rampFirst image count r s) := by
  have h : Keeps [.attention, .shadow, .completed, .mem, .lineList, .stationImages, .packs, .ramps, .doors,
      .doorUnit, .zones, .slots, .channels, .callUnit, .handovers] s
      (rampReport r count (setRamp r (s.ramps[r].withSwitches image) s)) :=
    .after (rampReport_keeps ..) rfl (.after (setRamp_keeps _ _ _ rfl) rfl (.refl _ _))
  unfold rampFirst
  dsimp only
  generalize rampReport r count (setRamp r (s.ramps[r].withSwitches image) s) = u at h ⊢
  split
  · exact .after (tellStowed_keeps ..) rfl (.after (setRamp_keeps _ _ _ rfl) rfl h)
  · split
    · exact .after (tellStowed_keeps ..) rfl (.after (setRamp_keeps _ _ _ rfl) rfl h)
    · exact (rampChange_keeps ..).mono rfl

theorem rampLoss_keeps (r : Fin 4) (s : State) :
    Keeps [.attention, .shadow, .completed, .mem,
      .lineList, .stationImages, .packs, .ramps, .doors, .doorUnit, .zones, .slots, .channels,
      .callUnit, .handovers] s
      (rampLoss r s) := by
  dsimp only [rampLoss]
  repeat'
    first
    | with_reducible apply Keeps.refl
    | ((with_reducible apply Keeps.after (failRamp_keeps ..)); rfl)
    | ((with_reducible apply Keeps.after (tellStowed_keeps ..)); rfl)
    | ((with_reducible apply Keeps.after (parkReachesDeck_keeps ..)); rfl)
    | ((with_reducible refine Keeps.after (setRamp_keeps _ _ _ ?_) ?_ ?_); rfl; rfl)
    | split

theorem rampsChange_keeps (i : Fin 48) (image : Word) (count : Byte) (s : State) :
    Keeps [
      .attention, .shadow, .completed, .mem, .lineList, .stationImages, .packs, .ramps, .doors,
      .doorUnit, .zones, .slots, .channels, .callUnit, .handovers] s
      (rampsChange i image count s) := by
  dsimp only [rampsChange]
  repeat'
    first
    | with_reducible apply Keeps.refl
    | ((with_reducible apply Keeps.after (rampChange_keeps ..)); rfl)
    | ((with_reducible apply Keeps.afterForList); on_goal 2 => intro i u)

theorem rampsFirst_keeps (i : Fin 48) (image : Word) (count : Byte) (s : State) :
    Keeps [
      .attention, .shadow, .completed, .mem, .lineList, .stationImages, .packs, .ramps, .doors,
      .doorUnit, .zones, .slots, .channels, .callUnit, .handovers] s
      (rampsFirst i image count s) := by
  dsimp only [rampsFirst]
  repeat'
    first
    | with_reducible apply Keeps.refl
    | ((with_reducible apply Keeps.after (rampFirst_keeps ..)); rfl)
    | ((with_reducible apply Keeps.afterForList); on_goal 2 => intro i u)

theorem rampsLoss_keeps (i : Fin 48) (s : State) :
    Keeps [.attention, .shadow, .completed, .mem,
      .lineList, .stationImages, .packs, .ramps, .doors, .doorUnit, .zones, .slots, .channels,
      .callUnit, .handovers] s
      (rampsLoss i s) := by
  dsimp only [rampsLoss]
  repeat'
    first
    | with_reducible apply Keeps.refl
    | ((with_reducible apply Keeps.after (rampLoss_keeps ..)); rfl)
    | ((with_reducible apply Keeps.afterForList); on_goal 2 => intro i u)

theorem rampsDelivery_keeps (i : Fin 48) (image : BitVec 32) (s : State) :
    Keeps [.lineList,
      .stationImages, .packs, .handovers] s
      (rampsDelivery i image s) := by
  dsimp only [rampsDelivery]
  repeat'
    first
    | with_reducible apply Keeps.refl
    | ((with_reducible apply Keeps.after (parkReachesDeck_keeps ..)); rfl)
    | ((with_reducible apply Keeps.afterForList); on_goal 2 => intro i u)
    | split

theorem rampsDeckStop_keeps (s : State) :
    Keeps [.attention, .shadow, .completed, .mem, .lineList,
      .stationImages, .packs, .ramps, .handovers] s
      (rampsDeckStop s) := by
  dsimp only [rampsDeckStop]
  repeat'
    first
    | with_reducible apply Keeps.refl
    | ((with_reducible apply Keeps.after (holdRamp_keeps ..)); rfl)
    | ((with_reducible apply Keeps.afterForEach); on_goal 2 => intro i u)

theorem durationOver_keeps (r : Fin 4) (s : State) :
    Keeps [.attention, .shadow, .completed, .mem,
      .lineList, .stationImages, .packs, .ramps, .doors, .doorUnit, .zones, .slots, .channels,
      .callUnit, .handovers] s
      (durationOver r s) := by
  dsimp only [durationOver]
  repeat'
    first
    | with_reducible apply Keeps.refl
    | ((with_reducible apply Keeps.after (endStage_keeps ..)); rfl)
    | ((with_reducible refine Keeps.after (setRamp_keeps _ _ _ ?_) ?_ ?_); rfl; rfl)

theorem limitOver_keeps (r : Fin 4) (s : State) :
    Keeps [.attention, .shadow, .completed, .mem,
      .lineList, .stationImages, .packs, .ramps, .handovers] s
      (limitOver r s) := by
  dsimp only [limitOver]
  repeat'
    first
    | with_reducible apply Keeps.refl
    | ((with_reducible apply Keeps.after (failRamp_keeps ..)); rfl)
    | ((with_reducible refine Keeps.after (setRamp_keeps _ _ _ ?_) ?_ ?_); rfl; rfl)

theorem blankOver_keeps (r : Fin 4) (s : State) :
    Keeps [.ramps] s
      (blankOver r s) := by
  dsimp only [blankOver]
  repeat'
    first
    | with_reducible apply Keeps.refl
    | ((with_reducible refine Keeps.after (setRamp_keeps _ _ _ ?_) ?_ ?_); rfl; rfl)

theorem leadOver_keeps (r : Fin 4) (s : State) :
    Keeps [.attention, .shadow, .completed, .mem,
      .lineList, .stationImages, .packs, .ramps, .doors, .doorUnit, .zones, .slots, .channels,
      .callUnit, .handovers] s
      (leadOver r s) := by
  dsimp only [leadOver]
  repeat'
    first
    | with_reducible apply Keeps.refl
    | ((with_reducible apply Keeps.after (endStage_keeps ..)); rfl)
    | ((with_reducible refine Keeps.after (setRamp_keeps _ _ _ ?_) ?_ ?_); rfl; rfl)

theorem stallRamp_keeps (r : Fin 4) (s : State) :
    Keeps [.attention, .shadow, .completed, .mem,
      .lineList, .stationImages, .packs, .ramps, .handovers] s
      (stallRamp r s) := by
  dsimp only [stallRamp]
  repeat'
    first
    | with_reducible apply Keeps.refl
    | ((with_reducible apply Keeps.after (failRamp_keeps ..)); rfl)
    | ((with_reducible refine Keeps.after (setRamp_keeps _ _ _ ?_) ?_ ?_); rfl; rfl)
    | split

theorem startProgram_keeps (r : Fin 4) (program : Program) (c : CardId) (s : State) :
    Keeps [
      .attention, .shadow, .completed, .mem, .lineList, .stationImages, .packs, .ramps, .doors,
      .doorUnit, .zones, .slots, .channels, .callUnit, .handovers] s
      (startProgram r program c s) := by
  unfold startProgram
  split
  · exact .after (tellStowed_keeps ..) rfl (.after (requestPack_keeps ..) rfl
      (.after (setRamp_keeps _ _ _ rfl) rfl (.refl _ _)))
  · exact .refl _ _

theorem resumeProgram_keeps (r : Fin 4) (c : CardId) (s : State) :
    Keeps [.lineList,
      .stationImages, .packs, .ramps, .handovers] s
      (resumeProgram r c s) := by
  dsimp only [resumeProgram]
  repeat'
    first
    | with_reducible apply Keeps.refl
    | ((with_reducible apply Keeps.after (requestPack_keeps ..)); rfl)
    | ((with_reducible refine Keeps.after (setRamp_keeps _ _ _ ?_) ?_ ?_); rfl; rfl)
    | split

theorem clearRamp_keeps (r : Fin 4) (s : State) :
    Keeps [.attention, .shadow, .completed, .mem,
      .lineList, .stationImages, .packs, .ramps, .doors, .doorUnit, .zones, .slots, .channels,
      .callUnit, .handovers] s
      (clearRamp r s) := by
  dsimp only [clearRamp]
  repeat'
    first
    | with_reducible apply Keeps.refl
    | ((with_reducible apply Keeps.after (tellStowed_keeps ..)); rfl)
    | ((with_reducible refine Keeps.after (setRamp_keeps _ _ _ ?_) ?_ ?_); rfl; rfl)

theorem freshRamps_touches (s : State) (l : Vector RampRecord 4) :
    Touches [.ramps] s
      (noteChanged ((List.finRange 4).map .ramp) s { s with ramps := l }) :=
  .noting
    (fun p hp => by
      cases p <;>
        first | (refine absurd ?_ hp; decide) | exact rfl | exact ⟨rfl, rfl⟩ | exact fun _ => rfl)
    rfl rfl rfl rfl (fun id hi => by
      cases id <;> first
        | exact absurd (List.mem_map_of_mem (List.mem_finRange _)) hi
        | rfl)

theorem adoptRamps_keeps (s : State) :
    Keeps [.attention, .shadow, .completed, .mem, .lineList, .stationImages, .packs, .ramps, .doors, .doorUnit, .zones, .slots, .channels, .callUnit, .handovers] s (adoptRamps s) := by
  unfold adoptRamps
  refine .afterForEach ?_ fun _ _ => .after (tellStowed_keeps ..) rfl (.refl _ _)
  exact ((freshRamps_touches s _).contributeKind .ramp (by decide) fun j hj =>
    composeImage_byKind rfl (fun hk => absurd hk hj) (fun _ => rfl) (fun _ => rfl) fun _ => rfl).mono rfl

theorem takeGrant_keeps (p : Fin 2) (q : Requester) (s : State) :
    Keeps [.attention, .shadow,
      .completed, .mem, .lineList, .stationImages, .packs, .ramps, .doors, .doorUnit, .zones, .slots,
      .channels, .callUnit, .handovers] s
      (takeGrant p q s) := by
  dsimp only [takeGrant]
  repeat'
    first
    | with_reducible apply Keeps.refl
    | ((with_reducible apply Keeps.after (takeRampGrant_keeps ..)); rfl)
    | ((with_reducible apply Keeps.after (takeDoorGrant_keeps ..)); rfl)
    | split

theorem settleGrant_keeps (p : Fin 2) (s : State) :
    Keeps [.attention, .shadow, .intake, .completed, .mem, .lineList, .stationImages, .packs, .ramps, .doors,
      .doorUnit, .zones, .slots, .channels, .callUnit, .watch, .counts, .handovers] s
      (settleGrant p s) := by
  unfold settleGrant
  split
  · exact takeEarly_keeps rfl (fun t => (takeGrant_keeps ..).mono rfl) ..
  · exact .refl _ _

theorem packFailureNotice_keeps (p : Fin 2) (q : Requester) (s : State) :
    Keeps [.attention,
      .shadow, .completed, .mem, .lineList, .stationImages, .packs, .ramps, .doors, .doorUnit, .zones,
      .slots, .channels, .callUnit, .handovers] s
      (packFailureNotice p q s) := by
  dsimp only [packFailureNotice]
  repeat'
    first
    | with_reducible apply Keeps.refl
    | ((with_reducible apply Keeps.after (failRamp_keeps ..)); rfl)
    | ((with_reducible apply Keeps.after (doorsPackFailed_keeps ..)); rfl)
    | split

theorem handFailureNotices_keeps (p : Fin 2) (r : PackRecord) (s : State) :
    Keeps [.attention, .shadow, .completed, .mem, .lineList, .stationImages, .packs, .ramps, .doors, .doorUnit,
      .zones, .slots, .channels, .callUnit, .handovers] s
      (handFailureNotices p r s) := by
  unfold handFailureNotices
  refine .afterForList ?_ fun _ _ => .after (packFailureNotice_keeps ..) rfl (.refl _ _)
  split
  · exact .after (packFailureNotice_keeps ..) rfl (.refl _ _)
  · exact .refl _ _

theorem enterFailed_keeps (p : Fin 2) (cause : PackFailureCause) (s : State) :
    Keeps [
      .attention, .shadow, .intake, .completed, .mem, .lineList, .stationImages, .packs, .ramps,
      .doors, .doorUnit, .zones, .slots, .channels, .callUnit, .watch, .counts, .handovers] s
      (enterFailed p cause s) :=
  .after (handFailureNotices_keeps ..) rfl (.after (settleGrant_keeps ..) rfl
    (.after (setPack_contribute ..) rfl (.after (dropPreemption_keeps ..) rfl (.refl _ _))))

theorem failPack_keeps (p : Fin 2) (cause : PackFailureCause) (s : State) :
    Keeps [
      .attention, .shadow, .intake, .completed, .mem, .lineList, .stationImages, .packs, .ramps,
      .doors, .doorUnit, .zones, .slots, .channels, .callUnit, .watch, .counts, .handovers] s
      (failPack p cause s) := by
  unfold failPack
  split
  · exact .refl _ _
  · exact enterFailed_keeps ..

theorem judgePack_keeps (p : Fin 2) (s : State) :
    Keeps [.lineList, .stationImages, .packs,
      .handovers] s
      (judgePack p s) := by
  dsimp only [judgePack]
  repeat'
    first
    | with_reducible apply Keeps.refl
    | ((with_reducible apply Keeps.after (judgeRecovery_keeps ..)); rfl)
    | ((with_reducible apply Keeps.after (judgeReady_keeps ..)); rfl)

theorem packChange_keeps (image named : Word) (p : Fin 2) (s : State) :
    Keeps [
      .attention, .shadow, .intake, .completed, .mem, .lineList, .stationImages, .packs, .ramps,
      .doors, .doorUnit, .zones, .slots, .channels, .callUnit, .watch, .counts, .handovers] s
      (packChange image named p s) := by
  have h : Keeps [.packs] s (setPack p (s.packs[p].withInputs image named) s) := setPack_keeps _ _ _ rfl
  unfold packChange
  dsimp only
  generalize setPack p (s.packs[p].withInputs image named) s = u at h ⊢
  split
  · exact .after (failPack_keeps ..) rfl (h.mono rfl)
  · split
    · exact .after (failPack_keeps ..) rfl (h.mono rfl)
    · exact .after (judgePack_keeps ..) rfl (h.mono rfl)

theorem packFirst_keeps (image : Word) (p : Fin 2) (s : State) :
    Keeps [
      .attention, .shadow, .intake, .completed, .mem, .lineList, .stationImages, .packs, .ramps,
      .doors, .doorUnit, .zones, .slots, .channels, .callUnit, .watch, .counts, .handovers] s
      (packFirst image p s) := by
  have h : Keeps [.packs] s (setPack p (s.packs[p].withInputs image 0x7) s) := setPack_keeps _ _ _ rfl
  unfold packFirst
  dsimp only
  generalize setPack p (s.packs[p].withInputs image 0x7) s = u at h ⊢
  split
  · exact .after (failPack_keeps ..) rfl (h.mono rfl)
  · exact .after (judgePack_keeps ..) rfl (h.mono rfl)

theorem packsChange_keeps (i : Fin 48) (image named : Word) (s : State) :
    Keeps [
      .attention, .shadow, .intake, .completed, .mem, .lineList, .stationImages, .packs, .ramps,
      .doors, .doorUnit, .zones, .slots, .channels, .callUnit, .watch, .counts, .handovers] s
      (packsChange i image named s) := by
  dsimp only [packsChange]
  repeat'
    first
    | with_reducible apply Keeps.refl
    | ((with_reducible apply Keeps.after (packChange_keeps ..)); rfl)
    | ((with_reducible apply Keeps.afterForList); on_goal 2 => intro i u)

theorem packsFirst_keeps (i : Fin 48) (image : Word) (s : State) :
    Keeps [
      .attention, .shadow, .intake, .completed, .mem, .lineList, .stationImages, .packs, .ramps,
      .doors, .doorUnit, .zones, .slots, .channels, .callUnit, .watch, .counts, .handovers] s
      (packsFirst i image s) := by
  dsimp only [packsFirst]
  repeat'
    first
    | with_reducible apply Keeps.refl
    | ((with_reducible apply Keeps.after (packFirst_keeps ..)); rfl)
    | ((with_reducible apply Keeps.afterForList); on_goal 2 => intro i u)

theorem packsLoss_keeps (i : Fin 48) (s : State) :
    Keeps [
      .attention, .shadow, .intake, .completed, .mem, .lineList, .stationImages, .packs, .ramps,
      .doors, .doorUnit, .zones, .slots, .channels, .callUnit, .watch, .counts, .handovers] s
      (packsLoss i s) := by
  dsimp only [packsLoss]
  repeat'
    first
    | with_reducible apply Keeps.refl
    | ((with_reducible apply Keeps.after (failPack_keeps ..)); rfl)
    | ((with_reducible apply Keeps.afterForList); on_goal 2 => intro i u)

theorem packsDelivery_keeps (i : Fin 48) (image : BitVec 32) (s : State) :
    Keeps [.lineList,
      .stationImages, .packs, .handovers] s
      (packsDelivery i image s) := by
  dsimp only [packsDelivery]
  repeat'
    first
    | with_reducible apply Keeps.refl
    | ((with_reducible apply Keeps.after (judgeReady_keeps ..)); rfl)
    | ((with_reducible apply Keeps.afterForList); on_goal 2 => intro i u)
    | ((with_reducible refine Keeps.after (setPack_keeps _ _ _ ?_) ?_ ?_); rfl; rfl)
    | split

theorem startLimitOver_keeps (p : Fin 2) (s : State) :
    Keeps [
      .attention, .shadow, .intake, .completed, .mem, .lineList, .stationImages, .packs, .ramps,
      .doors, .doorUnit, .zones, .slots, .channels, .callUnit, .watch, .counts, .handovers] s
      (startLimitOver p s) := by
  dsimp only [startLimitOver]
  repeat'
    first
    | with_reducible apply Keeps.refl
    | ((with_reducible apply Keeps.after (failPack_keeps ..)); rfl)
    | ((with_reducible refine Keeps.after (setPack_keeps _ _ _ ?_) ?_ ?_); rfl; rfl)

theorem recoveryOver_keeps (p : Fin 2) (s : State) :
    Keeps [.lineList, .stationImages, .packs,
      .handovers] s
      (recoveryOver p s) := by
  dsimp only [recoveryOver]
  repeat'
    first
    | with_reducible apply Keeps.refl
    | ((with_reducible apply Keeps.after (judgeRecovery_keeps ..)); rfl)
    | ((with_reducible refine Keeps.after (setPack_keeps _ _ _ ?_) ?_ ?_); rfl; rfl)

theorem judgePackStation_keeps (p : Fin 2) (s : State) :
    Keeps [
      .attention, .shadow, .intake, .completed, .mem, .lineList, .stationImages, .packs, .ramps,
      .doors, .doorUnit, .zones, .slots, .channels, .callUnit, .watch, .counts, .handovers] s
      (judgePackStation p s) := by
  dsimp only [judgePackStation]
  repeat'
    first
    | with_reducible apply Keeps.refl
    | ((with_reducible apply Keeps.after (failPack_keeps ..)); rfl)
    | split

theorem freshPacks_touches (s : State) (l : Vector PackRecord 2) :
    Touches [.packs] s
      (noteChanged ((List.finRange 2).map .pack) s { s with packs := l }) :=
  .noting
    (fun p hp => by
      cases p <;>
        first | (refine absurd ?_ hp; decide) | exact rfl | exact ⟨rfl, rfl⟩ | exact fun _ => rfl)
    rfl rfl rfl rfl (fun id hi => by
      cases id <;> first
        | exact absurd (List.mem_map_of_mem (List.mem_finRange _)) hi
        | rfl)

/-- The images follow the fresh packs once every image is recomposed. -/
theorem startPacks_touches (s : State) :
    Touches [
      .attention, .shadow, .intake, .completed, .mem, .lineList, .stationImages, .packs, .ramps,
      .doors, .doorUnit, .zones, .slots, .channels, .callUnit, .watch, .counts, .handovers] s (startPacks s) := by
  unfold startPacks
  exact ((freshPacks_touches s _).mono rfl).trans
    ((Touches.forEach fun p u => (contributePack_keeps p false u).touches rfl).trans
      (Touches.forEach fun p u => (judgePackStation_keeps p u).touches rfl))

theorem rejudgePack_keeps (p : Fin 2) (s : State) :
    Keeps [
      .attention, .shadow, .intake, .completed, .mem, .lineList, .stationImages, .packs, .ramps,
      .doors, .doorUnit, .zones, .slots, .channels, .callUnit, .watch, .counts, .handovers] s
      (rejudgePack p s) := by
  dsimp only [rejudgePack]
  repeat'
    first
    | with_reducible apply Keeps.refl
    | ((with_reducible apply Keeps.after (judgePackStation_keeps ..)); rfl)
    | ((with_reducible apply Keeps.after (startPump_keeps ..)); rfl)
    | split

/-- The images follow the fresh packs once every image is recomposed. -/
theorem adoptPacks_touches (before : Tables) (s : State) :
    Touches [
      .attention, .shadow, .intake, .completed, .mem, .lineList, .stationImages, .packs, .ramps,
      .doors, .doorUnit, .zones, .slots, .channels, .callUnit, .watch, .counts, .handovers] s (adoptPacks before s) := by
  unfold adoptPacks
  refine ((freshPacks_touches s _).mono rfl).trans (.trans (Touches.forEach fun p u => ?_)
    (Touches.forEach fun p u => (rejudgePack_keeps p u).touches rfl))
  split
  · split
    · exact (contribute_touches ..).mono rfl
    · exact .refl _ _
  · exact .refl _ _

end Sys2Proof.Machine
end

