-- ==== Sys2Proof/Laws/KeepsStations.lean ====
section
/-! SUPPORT. What the operations of the sensors, the zone orders and the station table may touch, one lemma for each (`Keeps`). -/

namespace Sys2Proof.Machine

-- One theorem at a time: many at once take much memory.
set_option Elab.async false

theorem changePoints_keeps (z : Fin 8) (i : Fin 48) (f : Fin 4 → PointRecord → PointRecord) (s : State) :
    Keeps [
      .zones] s
      (changePoints z i f s) := by
  dsimp only [changePoints]
  repeat'
    first
    | with_reducible apply Keeps.refl
    | ((with_reducible apply Keeps.after (setZone_keeps ..)); rfl)

theorem sensorNotice_keeps (i : Fin 48) (f : Fin 4 → PointRecord → PointRecord) (s : State) :
    Keeps [
      .attention, .shadow, .completed, .mem, .lineList, .stationImages, .zones, .slots, .channels,
      .callUnit, .handovers] s
      (sensorNotice i f s) := by
  dsimp only [sensorNotice]
  repeat'
    first
    | with_reducible apply Keeps.refl
    | ((with_reducible apply Keeps.after (judgeAlarm_keeps ..)); rfl)
    | ((with_reducible apply Keeps.after (changePoints_keeps ..)); rfl)
    | ((with_reducible apply Keeps.afterForList); on_goal 2 => intro i u)
    | split

theorem sensorsChange_keeps (i : Fin 48) (image named : Word) (s : State) :
    Keeps [.attention,
      .shadow, .completed, .mem, .lineList, .stationImages, .zones, .slots, .channels, .callUnit,
      .handovers] s
      (sensorsChange i image named s) := by
  dsimp only [sensorsChange]
  repeat'
    first
    | with_reducible apply Keeps.refl
    | ((with_reducible apply Keeps.after (sensorNotice_keeps ..)); rfl)

theorem sensorsFirst_keeps (i : Fin 48) (image : Word) (s : State) :
    Keeps [.attention, .shadow,
      .completed, .mem, .lineList, .stationImages, .zones, .slots, .channels, .callUnit, .handovers] s
      (sensorsFirst i image s) := by
  dsimp only [sensorsFirst]
  repeat'
    first
    | with_reducible apply Keeps.refl
    | ((with_reducible apply Keeps.after (sensorNotice_keeps ..)); rfl)

theorem sensorsLoss_keeps (i : Fin 48) (s : State) :
    Keeps [.attention, .shadow, .completed, .mem,
      .lineList, .stationImages, .zones, .slots, .channels, .callUnit, .handovers] s
      (sensorsLoss i s) := by
  dsimp only [sensorsLoss]
  repeat'
    first
    | with_reducible apply Keeps.refl
    | ((with_reducible apply Keeps.after (sensorNotice_keeps ..)); rfl)

theorem placeDemands_keeps (z : Fin 8) (s : State) :
    Keeps [.attention, .shadow, .completed, .mem, .lineList, .stationImages, .packs, .ramps, .doors, .doorUnit,
      .zones, .slots, .channels, .callUnit, .handovers] s
      (placeDemands z s) :=
  .afterForList (.refl _ _) fun _ _ => .after (takeDemand_keeps ..) rfl (.refl _ _)

theorem reportPlacement_keeps (z : Fin 8) (s : State) :
    Keeps [.attention, .shadow, .completed, .mem, .lineList, .stationImages, .packs, .ramps, .doors, .doorUnit,
      .zones, .slots, .channels, .callUnit, .handovers] s
      (reportPlacement z s) := by
  unfold reportPlacement
  split
  · exact .after (judgeSeal_keeps ..) rfl (.after (setZone_keeps ..) rfl (.refl _ _))
  · exact .refl _ _

theorem takeZoneDemand_keeps (z : Fin 8) (s : State) :
    Keeps [.attention, .shadow, .completed, .mem, .lineList, .stationImages, .packs, .ramps, .doors, .doorUnit,
      .zones, .slots, .channels, .callUnit, .handovers] s
      (takeZoneDemand z s) :=
  .after (reportPlacement_keeps ..) rfl (.after (endDoorEvent_keeps _) rfl (placeDemands_keeps z s))

theorem settleSealing_keeps (z : Fin 8) (s : State) :
    Keeps [.attention, .shadow, .intake, .completed, .mem, .lineList, .stationImages, .packs, .ramps, .doors,
      .doorUnit, .zones, .slots, .channels, .callUnit, .watch, .counts, .handovers] s
      (settleSealing z s) :=
  .trans (takeEarly_keeps rfl (fun _ => (takeZoneHold_keeps ..).mono rfl) ..)
    (takeEarly_keeps rfl
      (fun _ => .after (endDoorEvent_keeps _) rfl ((placeDemands_keeps ..).mono rfl)) ..)

theorem dropStarts_keeps (z : Fin 8) (s : State) : Keeps [.handovers] s (dropStarts z s) :=
  .afterForList (.refl _ _) fun _ _ => dropHandover_keeps ..

theorem releaseSealed_keeps (z : Fin 8) (s : State) :
    Keeps [
      .attention, .shadow, .intake, .completed, .mem, .lineList, .stationImages, .packs, .ramps,
      .doors, .doorUnit, .zones, .slots, .channels, .callUnit, .watch, .counts, .handovers] s
      (releaseSealed z s) := by
  unfold releaseSealed
  refine .after (reportZoneState_keeps ..) rfl (.after (dropStarts_keeps ..) rfl
    (.after (setZone_keeps ..) rfl (.after (endDoorEvent_keeps _) rfl (.afterForList ?_ fun d u =>
      .after (takeDemandWithdrawal_keeps ..) rfl (.refl _ _)))))
  exact .after (settleSealing_keeps ..) rfl (.after (endCardOf_keeps ..) rfl
    (.after (setZone_keeps ..) rfl (.refl _ _)))

theorem releaseAlert_keeps (z : Fin 8) (s : State) :
    Keeps [.attention, .shadow, .completed, .mem,
      .lineList, .stationImages, .zones, .slots, .channels, .callUnit, .handovers] s
      (releaseAlert z s) := by
  dsimp only [releaseAlert]
  repeat'
    first
    | with_reducible apply Keeps.refl
    | ((with_reducible apply Keeps.after (reportZoneState_keeps ..)); rfl)
    | ((with_reducible apply Keeps.after (setZone_keeps ..)); rfl)

theorem cancelZone_keeps (z : Fin 8) (s : State) :
    Keeps [.attention, .shadow, .completed, .mem,
      .zones] s
      (cancelZone z s) := by
  dsimp only [cancelZone]
  repeat'
    first
    | with_reducible apply Keeps.refl
    | ((with_reducible apply Keeps.after (endCardOf_keeps ..)); rfl)
    | ((with_reducible apply Keeps.after (setZone_keeps ..)); rfl)

theorem freshZones_keeps (s : State) (l : Vector ZoneRecord 8) :
    Keeps [.zones] s
      (noteChanged ((List.finRange 8).map .zone) s { s with zones := l }) :=
  .noting
    (fun p hp => by
      cases p <;>
        first | (refine absurd ?_ hp; decide) | exact rfl | exact ⟨rfl, rfl⟩ | exact fun _ => rfl)
    rfl rfl rfl rfl (fun id hi => by
      cases id <;> first
        | exact absurd (List.mem_map_of_mem (List.mem_finRange _)) hi
        | rfl)

theorem adoptZones_keeps (keepLastEnd : Bool) (s : State) :
    Keeps [.attention, .shadow, .completed, .mem, .lineList, .stationImages, .zones, .slots, .channels, .callUnit, .handovers] s (adoptZones keepLastEnd s) := by
  unfold adoptZones
  refine .afterForEach ?_ fun z u => ?_
  · refine .afterForEach ?_ fun _ _ => .after (judgeAlarm_keeps ..) rfl (.refl _ _)
    exact Keeps.mono (a := [.zones]) (freshZones_keeps ..) rfl
  · split
    · exact .refl _ _
    · exact .after (reportZoneState_keeps ..) rfl (.refl _ _)

theorem rejudgePoints_keeps (s : State) :
    Keeps [.attention, .shadow, .completed, .mem, .lineList,
      .stationImages, .zones, .slots, .channels, .callUnit, .handovers] s
      (rejudgePoints s) := by
  dsimp only [rejudgePoints]
  repeat'
    first
    | with_reducible apply Keeps.refl
    | ((with_reducible apply Keeps.after (judgeAlarm_keeps ..)); rfl)
    | ((with_reducible apply Keeps.after (setZone_keeps ..)); rfl)
    | ((with_reducible apply Keeps.afterForEach); on_goal 2 => intro i u)

theorem firstNotice_keeps (i : Fin 48) (s : State) :
    Keeps [
      .attention, .shadow, .intake, .completed, .mem, .lineList, .stationImages, .packs, .ramps,
      .doors, .doorUnit, .zones, .slots, .channels, .callUnit, .watch, .counts, .handovers] s
      (firstNotice i s) := by
  dsimp only [firstNotice]
  repeat'
    first
    | with_reducible apply Keeps.refl
    | ((with_reducible apply Keeps.after (doorsFirst_keeps ..)); rfl)
    | ((with_reducible apply Keeps.after (rampsFirst_keeps ..)); rfl)
    | ((with_reducible apply Keeps.after (packsFirst_keeps ..)); rfl)
    | ((with_reducible apply Keeps.after (callCount_keeps ..)); rfl)
    | ((with_reducible apply Keeps.after (sensorsFirst_keeps ..)); rfl)
    | split

theorem changeNotice_keeps (i : Fin 48) (named : Word) (s : State) :
    Keeps [
      .attention, .shadow, .intake, .completed, .mem, .lineList, .stationImages, .packs, .ramps,
      .doors, .doorUnit, .zones, .slots, .channels, .callUnit, .watch, .counts, .handovers] s
      (changeNotice i named s) := by
  dsimp only [changeNotice]
  repeat'
    first
    | with_reducible apply Keeps.refl
    | ((with_reducible apply Keeps.after (doorsChange_keeps ..)); rfl)
    | ((with_reducible apply Keeps.after (rampsChange_keeps ..)); rfl)
    | ((with_reducible apply Keeps.after (packsChange_keeps ..)); rfl)
    | ((with_reducible apply Keeps.after (callCount_keeps ..)); rfl)
    | ((with_reducible apply Keeps.after (sensorsChange_keeps ..)); rfl)
    | split

theorem lossNotice_keeps (i : Fin 48) (s : State) :
    Keeps [
      .attention, .shadow, .intake, .completed, .mem, .lineList, .stationImages, .packs, .ramps,
      .doors, .doorUnit, .zones, .slots, .channels, .callUnit, .watch, .counts, .handovers] s
      (lossNotice i s) := by
  dsimp only [lossNotice]
  repeat'
    first
    | with_reducible apply Keeps.refl
    | ((with_reducible apply Keeps.after (doorsLoss_keeps ..)); rfl)
    | ((with_reducible apply Keeps.after (rampsLoss_keeps ..)); rfl)
    | ((with_reducible apply Keeps.after (packsLoss_keeps ..)); rfl)
    | ((with_reducible apply Keeps.after (callLoss_keeps ..)); rfl)
    | ((with_reducible apply Keeps.after (sensorsLoss_keeps ..)); rfl)
    | split

theorem deliveryNotice_keeps (i : Fin 48) (image : BitVec 32) (s : State) :
    Keeps [.lineList,
      .stationImages, .packs, .channels, .handovers] s
      (deliveryNotice i image s) := by
  dsimp only [deliveryNotice]
  repeat'
    first
    | with_reducible apply Keeps.refl
    | ((with_reducible apply Keeps.after (rampsDelivery_keeps ..)); rfl)
    | ((with_reducible apply Keeps.after (packsDelivery_keeps ..)); rfl)
    | ((with_reducible apply Keeps.after (callDelivery_keeps ..)); rfl)
    | split

theorem adoptWhole_keeps (i : Fin 48) (r : StationRecord) (report : Word) (s : State)
    (hi : r.image = s.stations[i].image) (hq : r.sequence = s.stations[i].sequence)
    (hr : s.rejoinsLost → r.rejoinPending = true → r.state = .lost) :
    Keeps [
      .attention, .shadow, .intake, .completed, .mem, .lineList, .stationImages, .stationRest,
      .packs, .ramps, .doors, .doorUnit, .zones, .slots, .channels, .callUnit, .watch, .counts,
      .handovers] s
      (adoptWhole i r report s) :=
  .after (firstNotice_keeps ..) rfl (.after (setStation_keeps _ _ _ hi hq hr) rfl (.refl _ _))

/-- Confirmation leaves the composed image, the sequence number, the rejoin mark and the state alone. -/
theorem confirm_image (r : StationRecord) (n : Nat) (w : Word) :
    (r.confirm n w).image = r.image ∧ (r.confirm n w).sequence = r.sequence ∧
      (r.confirm n w).rejoinPending = r.rejoinPending ∧ (r.confirm n w).state = r.state := by
  unfold StationRecord.confirm
  split
  · exact ⟨rfl, rfl, rfl, rfl⟩
  · dsimp only
    repeat' split
    all_goals exact ⟨rfl, rfl, rfl, rfl⟩

theorem confirmReport_keeps (i : Fin 48) (r : StationRecord) (report : Word) (s : State)
    (hi : r.image = s.stations[i].image) (hq : r.sequence = s.stations[i].sequence)
    (hr : s.rejoinsLost → r.rejoinPending = true → r.state = .lost) :
    Keeps [
      .attention, .shadow, .intake, .completed, .mem, .lineList, .stationImages, .stationRest,
      .packs, .ramps, .doors, .doorUnit, .zones, .slots, .channels, .callUnit, .watch, .counts,
      .handovers] s
      (confirmReport i r report s) := by
  have h := confirm_image r s.tables.stations[i].confirmCount (reportInputs (s.stationKind i) report)
  have hj := fun hs hp => h.2.2.2.trans (hr hs (h.2.2.1.symm.trans hp))
  dsimp only [confirmReport]
  split
  · exact .after (changeNotice_keeps ..) rfl
      (.after (setStation_keeps _ _ _ (h.1.trans hi) (h.2.1.trans hq) hj) rfl (.refl _ _))
  · exact .after (setStation_keeps _ _ _ (h.1.trans hi) (h.2.1.trans hq) hj) rfl (.refl _ _)

theorem requestIfNone_keeps (i : Fin 48) (s : State) :
    Keeps [.lineList] s
      (requestIfNone i s) := by
  dsimp only [requestIfNone]
  repeat'
    first
    | with_reducible apply Keeps.refl
    | ((with_reducible apply Keeps.after (queueRequest_keeps ..)); rfl)
    | split

theorem beginRejoin_keeps (i : Fin 48) (r : StationRecord) (s : State)
    (hi : r.image = s.stations[i].image) (hq : r.sequence = s.stations[i].sequence)
    (hl : r.state = .lost) (hn : ¬ r.rejoinPending = true) :
    Keeps [.lineList, .stationRest] s (beginRejoin i r s) := by
  dsimp only [beginRejoin]
  split
  · exact .after (queueRequest_keeps ..) rfl
      (.after (setStation_keeps _ _ _ hi hq fun _ _ => hl) rfl (.refl _ _))
  · exact .after (setStation_keeps _ _ _ hi hq fun _ h => absurd h hn) rfl (.refl _ _)

theorem takeReport_keeps (i : Fin 48) (report : Word) (s : State) :
    Keeps [
      .attention, .shadow, .intake, .completed, .mem, .lineList, .stationImages, .stationRest,
      .packs, .ramps, .doors, .doorUnit, .zones, .slots, .channels, .callUnit, .watch, .counts,
      .handovers] s
      (takeReport i report s) := by
  dsimp only [takeReport]
  split
  · exact .refl _ _
  · rename_i hs
    exact .after (requestIfNone_keeps ..) rfl (adoptWhole_keeps _ _ _ _ rfl rfl fun h hp =>
      nomatch hs.symm.trans (h i hp))
  · split
    · exact adoptWhole_keeps _ _ _ _ rfl rfl fun h => h i
    · exact confirmReport_keeps _ _ _ _ rfl rfl fun h => h i
  · rename_i hs
    split
    · exact .after (setStation_keeps _ _ _ rfl rfl fun h => h i) rfl (.refl _ _)
    · rename_i hn
      exact .after (beginRejoin_keeps _ _ _ rfl rfl hs hn) rfl (.refl _ _)

theorem takeAcknowledgement_keeps (i : Fin 48) (image : BitVec 32) (s : State) :
    Keeps [.attention, .shadow, .completed, .mem, .lineList, .stationImages, .stationRest, .packs, .ramps, .doors, .doorUnit, .zones, .slots, .channels, .callUnit, .handovers] s
      (takeAcknowledgement i image s) := by
  dsimp only [takeAcknowledgement]
  split
  · exact .refl _ _
  · rename_i hs
    exact .after (deliveryNotice_keeps ..) rfl
      (.after (setStation_keeps _ _ _ rfl rfl fun h hp => nomatch hs.symm.trans (h i hp)) rfl (.refl _ _))
  · exact .after (deliveryNotice_keeps ..) rfl
      (.after (setStation_keeps _ _ _ rfl rfl fun h => h i) rfl (.refl _ _))
  · split
    · exact .after (deliveryNotice_keeps ..) rfl
        (.after (setStation_keeps _ _ _ rfl rfl fun _ hp => nomatch hp) rfl (.refl _ _))
    · exact .after (deliveryNotice_keeps ..) rfl (.refl _ _)

theorem loseStation_keeps (i : Fin 48) (r : StationRecord) (s : State)
    (hi : r.image = s.stations[i].image) (hq : r.sequence = s.stations[i].sequence) :
    Keeps [
      .attention, .shadow, .intake, .completed, .mem, .lineList, .lineCourse, .stationImages,
      .stationRest, .packs, .ramps, .doors, .doorUnit, .zones, .slots, .channels, .callUnit, .watch,
      .counts, .handovers] s
      (loseStation i r s) :=
  .after (lossNotice_keeps ..) rfl
    (.after (removalRequest_keeps ..) rfl (.after (setStation_keeps _ _ _ hi hq fun _ _ => rfl) rfl (.refl _ _)))

theorem takeMiss_keeps (i : Fin 48) (s : State) :
    Keeps [
      .attention, .shadow, .intake, .completed, .mem, .lineList, .lineCourse, .stationImages,
      .stationRest, .packs, .ramps, .doors, .doorUnit, .zones, .slots, .channels, .callUnit, .watch,
      .counts, .handovers] s
      (takeMiss i s) := by
  dsimp only [takeMiss]
  repeat'
    first
    | with_reducible apply Keeps.refl
    | exact loseStation_keeps _ _ _ rfl rfl
    | ((with_reducible apply Keeps.after (removalRequest_keeps ..)); rfl)
    | exact .after (setStation_keeps _ _ _ rfl rfl fun h => h i) rfl (.refl _ _)
    | exact .after (setStation_keeps _ _ _ rfl rfl fun _ hp => nomatch hp) rfl (.refl _ _)
    | split

theorem takeHandOver_keeps (t : Transaction) (o : LineOutcome) (payload : List Byte) (s : State) :
    Keeps [
      .attention, .shadow, .intake, .completed, .mem, .lineList, .lineCourse, .stationImages,
      .stationRest, .packs, .ramps, .doors, .doorUnit, .zones, .slots, .channels, .callUnit, .watch,
      .counts, .handovers] s
      (takeHandOver t o payload s) := by
  dsimp only [takeHandOver]
  repeat'
    first
    | with_reducible apply Keeps.refl
    | ((with_reducible apply Keeps.after (takeAcknowledgement_keeps ..)); rfl)
    | ((with_reducible apply Keeps.after (takeReport_keeps ..)); rfl)
    | ((with_reducible apply Keeps.after (takeMiss_keeps ..)); rfl)
    | split

theorem finishAttempt_keeps (t : Transaction) (o : LineOutcome) (payload : List Byte) (s : State) :
    Keeps [
      .attention, .shadow, .intake, .completed, .mem, .lineList, .lineCourse, .stationImages,
      .stationRest, .packs, .ramps, .doors, .doorUnit, .zones, .slots, .channels, .callUnit, .watch,
      .counts, .handovers] s
      (finishAttempt t o payload s) := by
  dsimp only [finishAttempt]
  split
  · exact .after (takeHandOver_keeps ..) rfl ((endAttempt_keeps t o s).mono rfl)
  · exact (endAttempt_keeps t o s).mono rfl

theorem disableStation_keeps (i : Fin 48) (s : State) :
    Keeps [
      .attention, .shadow, .intake, .completed, .mem, .lineList, .lineCourse, .stationImages,
      .stationRest, .packs, .ramps, .doors, .doorUnit, .zones, .slots, .channels, .callUnit, .watch,
      .counts, .handovers] s
      (disableStation i s) := by
  dsimp only [disableStation]
  split
  · exact .refl _ _
  · exact .after (lossNotice_keeps ..) rfl
      (.after (removalRequest_keeps ..) rfl
        (.after (setStation_keeps _ _ _ rfl rfl fun _ hp => nomatch hp) rfl (.refl _ _)))

theorem enableStation_keeps (i : Fin 48) (s : State) :
    Keeps [.stationRest] s (enableStation i s) := by
  dsimp only [enableStation]
  split
  · rename_i hs
    exact setStation_keeps _ _ _ rfl rfl fun h hp => nomatch hs.symm.trans (h i hp)
  · exact .refl _ _

theorem freshStations_touches (s : State) (l : Vector StationRecord 48)
    (hr : ∀ i : Fin 48, l[i].rejoinPending = true → l[i].state = .lost) :
    Touches [.stationImages, .stationSequences, .stationRest] s
      (noteChanged ((List.finRange 48).map .station) s { s with stations := l }) :=
  .noting
    (fun p hp => by
      cases p <;>
        first | (refine absurd ?_ hp; decide) | exact rfl | exact ⟨rfl, rfl⟩)
    rfl rfl rfl rfl (fun id hi => by
      cases id <;> first
        | exact absurd (List.mem_map_of_mem (List.mem_finRange _)) hi
        | rfl)
    (hr := fun _ => hr)

/-- The images follow the fresh tables once every image is recomposed. -/
theorem adoptStations_touches (s : State) :
    Touches [.stationImages, .stationSequences, .stationRest] s (adoptStations s) :=
  freshStations_touches s _ fun i h => by simp [adoptedStation, StationRecord.start] at h

end Sys2Proof.Machine
end

