-- ==== Sys2Proof/Laws/KeepsOrders.lean ====
section
/-! SUPPORT. What the operations of the watch unit, adoption, the orders and the events may touch, one lemma for each (`Keeps`). -/

namespace Sys2Proof.Machine

-- One theorem at a time: many at once take much memory.
set_option Elab.async false

theorem armChannel_keeps (k : Fin 8) (fields : WatchRecord) (s : State) :
    Keeps [.attention, .shadow, .intake, .watch, .counts] s (armChannel k fields s).2 := by
  dsimp only [armChannel]
  repeat'
    first
    | with_reducible apply Keeps.refl
    | ((with_reducible refine watchEvent_keeps ?_ ?_ ?_); on_goal 1 => rfl)
    | ((with_reducible apply Keeps.after (evaluateChannel_keeps ..)); rfl)
    | ((with_reducible apply Keeps.after (setWatch_keeps ..)); rfl)
    | split

theorem disarmOne_keeps (k : Fin 8) (s : State) : Keeps [.watch] s (disarmOne k s) :=
  setWatch_keeps ..

theorem disarmChannel_keeps (k : Fin 8) (s : State) :
    Keeps [.attention, .watch, .counts] s
      (disarmChannel k s) := by
  unfold disarmChannel
  refine watchEvent_keeps rfl ?_ (.refl _ _)
  split
  · exact .after (disarmOne_keeps ..) rfl (.after (disarmOne_keeps ..) rfl (.refl _ _))
  · exact .after (disarmOne_keeps ..) rfl (.refl _ _)

theorem clearChannel_keeps (k : Fin 8) (s : State) :
    Keeps [.attention, .watch, .counts] s
      (clearChannel k s) :=
  watchEvent_keeps rfl ((setWatch_keeps ..).mono rfl) (.refl _ _)

theorem setTables_touches (t : Tables) (s : State) :
    Touches [.tables] s
      (noteChanged ((List.finRange 48).map .station ++ (List.finRange 32).map .door) s
        { s with tables := t }) :=
  .noting
    (fun p hp => by
      cases p <;>
        first | (refine absurd ?_ hp; decide) | exact rfl | exact ⟨rfl, rfl⟩ | exact fun _ => rfl)
    rfl rfl rfl rfl (fun id hi => by
      cases id <;> first
        | exact absurd (List.mem_append_left _ (List.mem_map_of_mem (List.mem_finRange _))) hi
        | exact absurd (List.mem_append_right _ (List.mem_map_of_mem (List.mem_finRange _))) hi
        | rfl)

theorem adoptTable_keeps (name : TableName) (t : Tables) (s : State) :
    Keeps [
      .attention, .shadow, .intake, .completed, .mem, .tables, .lineList, .lineCourse,
      .stationImages, .stationSequences, .stationRest, .packs, .ramps, .doors, .doorUnit, .zones,
      .slots, .channels, .callUnit, .watch, .counts, .handovers] s
      (adoptTable name t s) := by
  dsimp only [adoptTable]
  split
  · refine .after (rejudgePoints_keeps ..) rfl (.after (adoptDoors_keeps ..) rfl
      (.after (adoptRamps_keeps ..) rfl (.afterForEach ?_ fun p u =>
        .after (judgePackStation_keeps ..) rfl (.refl _ _))))
    exact Touches.recomposeAll (.after (adoptStations_touches _) rfl (.after (lineAdoptStations_keeps _).toTouches
      rfl (.after (setTables_touches t s) rfl (.refl _ _)))) rfl
  · exact Touches.recomposeAll (.after (adoptPacks_touches s.tables _) rfl
      (.after (setTables_touches t s) rfl (.refl _ _))) rfl
  · exact Touches.recomposeAll (.after (adoptRamps_keeps _).toTouches rfl
      (.after (setTables_touches t s) rfl (.refl _ _))) rfl
  · exact Touches.recomposeAll (.after (adoptDoors_keeps _).toTouches rfl
      (.after (setTables_touches t s) rfl (.refl _ _))) rfl
  · exact Touches.recomposeAll (.after (callAdoptZones_keeps s.tables _).toTouches rfl
      (.after (adoptZones_keeps true _).toTouches rfl (.after (setTables_touches t s) rfl (.refl _ _)))) rfl

theorem startLine_keeps (s : State) : Keeps [.lineCourse] s (startLine s) :=
  setCourse_keeps _ _ rfl rfl

theorem clearForRunning_keeps (s : State) :
    Keeps [.part, .zones, .handovers] s
      (noteChanged ((List.finRange 8).map .zone) s
        { s with part := .running, handovers := [], zones := Vector.replicate 8 ZoneRecord.start }) :=
  .noting
    (fun p hp => by
      cases p <;>
        first | (refine absurd ?_ hp; decide) | exact rfl | exact ⟨rfl, rfl⟩ | exact fun _ => rfl)
    rfl rfl rfl rfl (fun id hi => by
      cases id <;> first
        | exact absurd (List.mem_map_of_mem (List.mem_finRange _)) hi
        | rfl)

theorem enterRunning_keeps (s : State) :
    Keeps [
      .attention, .shadow, .intake, .completed, .mem, .part, .lineList, .lineCourse, .stationImages,
      .packs, .ramps, .doors, .doorUnit, .zones, .slots, .channels, .callUnit, .watch, .counts,
      .handovers] s
      (enterRunning s) :=
  Touches.recomposeAll (.after (adoptZones_keeps false _).toTouches rfl (.after (adoptDoors_keeps _).toTouches rfl
    (.after (adoptRamps_keeps _).toTouches rfl (.after (startPacks_touches _) rfl (.after (resetCalls_touches _) rfl
      (.after (startLine_keeps _).toTouches rfl (.after (clearForRunning_keeps s).toTouches rfl (.refl _ _))))))))
    rfl

/-- A command that changes records is an event, at whose end the idle line chooses. -/
theorem commandEvent_keeps_from {touched : List Piece} {forced : RecordId → Bool} {act : State → State}
    {u s : State} (hT : within endPieces touched = true) (hu : u.changed = s.changed)
    (h : Keeps touched { u with changed := [] } (act { s with changed := [] })) :
    Keeps touched u (commandEvent forced act s) := by
  have sub : ∀ {a : List Piece}, within a endPieces = true → within a touched = true :=
    fun ha => List.all_eq_true.mpr fun p hp => by simpa using within_mem hT (within_mem ha hp)
  exact asEvent_keeps_from (sub rfl) hu (h.trans ((chooseTransaction_keeps _).mono (sub rfl)))

theorem commandEvent_keeps {touched : List Piece} {act : State → State}
    (hT : within endPieces touched = true) (h : ∀ s, Keeps touched s (act s))
    (forced : RecordId → Bool) (s : State) : Keeps touched s (commandEvent forced act s) :=
  commandEvent_keeps_from hT rfl (h _)

/-- A taking finds no card of its kind and changes nothing, or takes the head of the intake list. -/
theorem takeOrder_keeps {touched : List Piece} {owner : CardId → State → State}
    (hT : within [.shadow, .completed, .mem, .attention] touched = true)
    (h : ∀ c t, Keeps touched t (owner c t)) (k : OrderKind) (s : State) :
    (s.headOrder k = none ∧ takeOrder k owner s = s) ∨
      ∃ c, s.headOrder k = some c ∧ Keeps touched (takeHead c s) (takeOrder k owner s) := by
  unfold takeOrder
  split
  · rename_i c hc
    refine .inr ⟨c, hc, ?_⟩
    split
    · exact (endCard_keeps ..).mono hT
    · exact h _ _
  · exact .inl ⟨‹_›, rfl⟩

/-- What the taking of an order keeps, as a command: of the state itself where it finds no card of its kind,
else of the state with the card taken off the intake list. -/
theorem taking_keeps {touched : List Piece} {owner : CardId → State → State}
    (hO : within [.shadow, .completed, .mem, .attention] touched = true)
    (hT : within endPieces touched = true) (h : ∀ c t, Keeps touched t (owner c t))
    (forced : RecordId → Bool) (k : OrderKind) (s : State) :
    (s.headOrder k = none ∧ Keeps touched s (commandEvent forced (takeOrder k owner) s)) ∨
      ∃ c, s.headOrder k = some c ∧
        Keeps touched (takeHead c s) (commandEvent forced (takeOrder k owner) s) := by
  rcases takeOrder_keeps hO h k { s with changed := [] } with ⟨hn, he⟩ | ⟨c, hc, hk⟩
  · exact .inl ⟨hn, commandEvent_keeps_from hT rfl (by rw [he]; exact .refl _ _)⟩
  · exact .inr ⟨c, hc, commandEvent_keeps_from hT rfl hk⟩

theorem withTarget_keeps {touched : List Piece} {n : Nat} {owner : Fin n → CardId → State → State}
    (h : ∀ i c t, Keeps touched t (owner i c t)) (c : CardId) (s : State) :
    Keeps touched s (withTarget n owner c s) := by
  unfold withTarget
  split
  · exact h _ _ _
  · exact .refl _ _

theorem withSlot_keeps {touched : List Piece} {n : Nat} {owner : Fin n → CardId → State → State}
    (h : ∀ i c t, Keeps touched t (owner i c t)) (c : CardId) (s : State) :
    Keeps touched s (withSlot n owner c s) := by
  unfold withSlot
  split
  · exact h _ _ _
  · exact .refl _ _

theorem cancelCall_keeps (i : Fin 16) (s : State) :
    Keeps [.attention, .shadow, .completed, .mem,
      .lineList, .stationImages, .slots, .channels] s
      (cancelCall i s) := by
  dsimp only [cancelCall]
  repeat'
    first
    | with_reducible apply Keeps.refl
    | ((with_reducible apply Keeps.after (startTest_keeps ..)); rfl)
    | ((with_reducible apply Keeps.after (endCall_keeps ..)); rfl)
    | ((with_reducible apply Keeps.after (stopCall_keeps ..)); rfl)

theorem cancelOwner_keeps (o : CardOwner) (s : State) :
    Keeps [.attention, .shadow, .completed,
      .mem, .lineList, .stationImages, .packs, .ramps, .doors, .doorUnit, .zones, .slots, .channels,
      .callUnit, .handovers] s
      (cancelOwner o s) := by
  dsimp only [cancelOwner]
  repeat'
    first
    | with_reducible apply Keeps.refl
    | ((with_reducible apply Keeps.after (holdRamp_keeps ..)); rfl)
    | ((with_reducible apply Keeps.after (cancelDoor_keeps ..)); rfl)
    | ((with_reducible apply Keeps.after (cancelZone_keeps ..)); rfl)
    | ((with_reducible apply Keeps.after (cancelCall_keeps ..)); rfl)
    | split

theorem cancelCard_keeps (t : Fin 32) (c : CardId) (s : State) :
    Keeps [.attention, .shadow, .intake, .completed, .mem, .lineList, .stationImages, .packs, .ramps, .doors, .doorUnit, .zones, .slots, .channels, .callUnit, .handovers] s
      (cancelCard t c s) := by
  dsimp only [cancelCard]
  split
  · exact .after (endCard_keeps ..) rfl (.after (endCardAs_keeps _ _ _ _ _ (.inr rfl)) rfl
      (.after (removeIntake_keeps ..) rfl (.refl _ _)))
  · split
    · exact .after (endCard_keeps ..) rfl (.after (cancelOwner_keeps ..) rfl (.refl _ _))
    · exact .after (endCard_keeps ..) rfl (.refl _ _)
  all_goals exact .after (endCard_keeps ..) rfl (.refl _ _)

theorem refuseOr_keeps {touched : List Piece} {accept : State → State}
    (hT : within [.shadow, .completed, .mem, .attention] touched = true)
    (h : ∀ t, Keeps touched t (accept t)) (verdict : Option (OrderOutcome × Nat)) (c : CardId) (s : State) :
    Keeps touched s (refuseOr verdict accept c s) := by
  unfold refuseOr
  split
  · exact (endCard_keeps ..).mono hT
  · exact h s

theorem loadTable_keeps (c : CardId) (s : State) :
    Keeps [
      .attention, .shadow, .intake, .completed, .mem, .tables, .lineList, .lineCourse,
      .stationImages, .stationSequences, .stationRest, .packs, .ramps, .doors, .doorUnit, .zones,
      .slots, .channels, .callUnit, .watch, .counts, .handovers] s
      (loadTable c s) := by
  dsimp only [loadTable]
  repeat'
    first
    | with_reducible apply Keeps.refl
    | ((with_reducible apply Keeps.after (endCard_keeps ..)); rfl)
    | ((with_reducible apply Keeps.after (adoptTable_keeps ..)); rfl)
    | split

theorem startDeck_keeps (c : CardId) (s : State) :
    Keeps [
      .attention, .shadow, .intake, .completed, .mem, .part, .lineList, .lineCourse, .stationImages,
      .packs, .ramps, .doors, .doorUnit, .zones, .slots, .channels, .callUnit, .watch, .counts,
      .handovers] s
      (startDeck c s) :=
  refuseOr_keeps rfl
    (fun t => .after (endCard_keeps ..) rfl (.after (enterRunning_keeps ..) rfl (.refl _ t))) _ _ _

theorem stationOrder_keeps {touched : List Piece} {act : Fin 48 → State → State}
    (hT : within [.shadow, .completed, .mem, .attention] touched = true)
    (h : ∀ i t, Keeps touched t (act i t)) (i : Fin 48) (c : CardId) (s : State) :
    Keeps touched s (stationOrder act i c s) := by
  unfold stationOrder
  split
  · exact (endCard_keeps ..).mono hT
  · exact ((h i s).trans ((endCard_keeps ..).mono hT))

theorem rampProgramOrder_keeps (program : Program) (r : Fin 4) (c : CardId) (s : State) :
    Keeps [.attention, .shadow, .completed, .mem, .lineList, .stationImages, .packs, .ramps, .doors, .doorUnit, .zones, .slots, .channels, .callUnit, .handovers] s
      (rampProgramOrder program r c s) :=
  refuseOr_keeps rfl (fun _ => .after (startProgram_keeps ..) rfl (.refl _ _)) _ _ _

theorem rampHoldOrder_keeps (r : Fin 4) (c : CardId) (s : State) :
    Keeps [.attention, .shadow,
      .completed, .mem, .lineList, .stationImages, .packs, .ramps, .handovers] s
      (rampHoldOrder r c s) := by
  dsimp only [rampHoldOrder]
  repeat'
    first
    | with_reducible apply Keeps.refl
    | ((with_reducible apply Keeps.after (endCard_keeps ..)); rfl)
    | ((with_reducible apply Keeps.after (holdRamp_keeps ..)); rfl)
    | split

theorem rampResumeOrder_keeps (r : Fin 4) (c : CardId) (s : State) :
    Keeps [.attention, .shadow, .completed, .mem, .lineList, .stationImages, .packs, .ramps, .handovers] s
      (rampResumeOrder r c s) :=
  refuseOr_keeps rfl (fun _ => .after (resumeProgram_keeps ..) rfl (.refl _ _)) _ _ _

theorem rampClearOrder_keeps (r : Fin 4) (c : CardId) (s : State) :
    Keeps [.attention, .shadow,
      .completed, .mem, .lineList, .stationImages, .packs, .ramps, .doors, .doorUnit, .zones, .slots,
      .channels, .callUnit, .handovers] s
      (rampClearOrder r c s) := by
  dsimp only [rampClearOrder]
  repeat'
    first
    | with_reducible apply Keeps.refl
    | ((with_reducible apply Keeps.after (endCard_keeps ..)); rfl)
    | ((with_reducible apply Keeps.after (clearRamp_keeps ..)); rfl)
    | split

theorem doorCloseOrder_keeps (d : Fin 32) (c : CardId) (s : State) :
    Keeps [.attention, .shadow, .completed, .mem, .lineList, .stationImages, .packs, .ramps, .doors, .doorUnit, .zones, .slots, .channels, .callUnit, .handovers] s
      (doorCloseOrder d c s) :=
  refuseOr_keeps rfl (fun _ => .after (startDoorClose_keeps ..) rfl (.refl _ _)) _ _ _

theorem doorOpenOrder_keeps (d : Fin 32) (c : CardId) (s : State) :
    Keeps [.attention, .shadow, .completed, .mem, .lineList, .stationImages, .packs, .ramps, .doors, .doorUnit, .zones, .slots, .channels, .callUnit, .handovers] s
      (doorOpenOrder d c s) :=
  refuseOr_keeps rfl (fun _ => .after (startDoorOpen_keeps ..) rfl (.refl _ _)) _ _ _

theorem doorClearOrder_keeps (d : Fin 32) (c : CardId) (s : State) :
    Keeps [.attention, .shadow,
      .completed, .mem, .lineList, .stationImages, .packs, .ramps, .doors, .doorUnit, .zones, .slots,
      .channels, .callUnit, .handovers] s
      (doorClearOrder d c s) := by
  dsimp only [doorClearOrder]
  repeat'
    first
    | with_reducible apply Keeps.refl
    | ((with_reducible apply Keeps.after (endCard_keeps ..)); rfl)
    | ((with_reducible apply Keeps.after (clearDoor_keeps ..)); rfl)
    | split

theorem zoneAlertOrder_keeps (z : Fin 8) (c : CardId) (s : State) :
    Keeps [.attention, .shadow,
      .completed, .mem, .lineList, .stationImages, .zones, .slots, .channels, .callUnit, .handovers] s
      (zoneAlertOrder z c s) := by
  dsimp only [zoneAlertOrder]
  repeat'
    first
    | with_reducible apply Keeps.refl
    | ((with_reducible apply Keeps.after (endCard_keeps ..)); rfl)
    | ((with_reducible apply Keeps.after (enterAlert_keeps ..)); rfl)
    | split

theorem zoneSealOrder_keeps (z : Fin 8) (c : CardId) (s : State) :
    Keeps [.attention, .shadow,
      .completed, .mem, .zones, .handovers] s
      (zoneSealOrder z c s) := by
  dsimp only [zoneSealOrder]
  repeat'
    first
    | with_reducible apply Keeps.refl
    | ((with_reducible apply Keeps.after (enterSealing_keeps ..)); rfl)
    | ((with_reducible apply Keeps.after (endCard_keeps ..)); rfl)
    | split

theorem zoneReleaseOrder_keeps (z : Fin 8) (c : CardId) (s : State) :
    Keeps [
      .attention, .shadow, .intake, .completed, .mem, .lineList, .stationImages, .packs, .ramps,
      .doors, .doorUnit, .zones, .slots, .channels, .callUnit, .watch, .counts, .handovers] s
      (zoneReleaseOrder z c s) := by
  dsimp only [zoneReleaseOrder]
  repeat'
    first
    | with_reducible apply Keeps.refl
    | ((with_reducible apply Keeps.after (endCard_keeps ..)); rfl)
    | ((with_reducible apply Keeps.after (releaseAlert_keeps ..)); rfl)
    | ((with_reducible apply Keeps.after (releaseSealed_keeps ..)); rfl)
    | split

theorem callOrder_keeps (c : CardId) (s : State) :
    Keeps [.attention, .shadow, .completed, .mem, .lineList, .stationImages, .slots, .channels, .callUnit] s
      (callOrder c s) := by
  dsimp only [callOrder]
  split
  · exact .refl _ _
  · split
    · exact .after (endCard_keeps ..) rfl (.refl _ _)
    · rename_i call _ _
      have h := (enterCall_keeps
        { call with zones := s.allowedZones call.priority call.zones } s).mono
        (b := [.attention, .shadow, .completed, .mem, .lineList, .stationImages, .slots, .channels, .callUnit]) rfl
      split <;> rename_i he <;> rw [he] at h
      · exact .after (startTest_keeps ..) rfl (.after (endCard_keeps ..) rfl h)
      · exact .after (startTest_keeps ..) rfl h
      · exact .after (endCard_keeps ..) rfl h

theorem callStopOrder_keeps (i : Fin 16) (c : CardId) (s : State) :
    Keeps [.attention, .shadow,
      .completed, .mem, .lineList, .stationImages, .slots, .channels] s
      (callStopOrder i c s) := by
  dsimp only [callStopOrder]
  repeat'
    first
    | with_reducible apply Keeps.refl
    | ((with_reducible apply Keeps.after (endCard_keeps ..)); rfl)
    | ((with_reducible apply Keeps.after (cancelCall_keeps ..)); rfl)
    | split

theorem watchArmOrder_keeps (k : Fin 8) (c : CardId) (s : State) :
    Keeps [.attention, .shadow, .intake, .completed, .mem, .watch, .counts] s (watchArmOrder k c s) := by
  dsimp only [watchArmOrder]
  split
  · exact .refl _ _
  · exact .after (endCard_keeps ..) rfl ((armChannel_keeps ..).mono rfl)

theorem watchOrder_keeps {touched : List Piece} {act : Fin 8 → State → State}
    (hT : within [.shadow, .completed, .mem, .attention] touched = true)
    (h : ∀ k t, Keeps touched t (act k t)) (k : Fin 8) (c : CardId) (s : State) :
    Keeps touched s (watchOrder act k c s) :=
  (h k s).trans ((endCard_keeps ..).mono hT)

theorem frameSent_keeps (s : State) : Keeps [.lineCourse] s (frameSent s) := by
  unfold frameSent
  split
  · exact setCourse_keeps _ _ rfl rfl
  · exact .refl _ _

theorem takeJudgement_keeps (t : Transaction) (j : Judgement) (s : State) :
    Keeps [
      .attention, .shadow, .intake, .completed, .mem, .lineList, .lineCourse, .stationImages,
      .stationRest, .packs, .ramps, .doors, .doorUnit, .zones, .slots, .channels, .callUnit, .watch,
      .counts, .handovers] s
      (takeJudgement t j s) := by
  dsimp only [takeJudgement]
  repeat'
    first
    | with_reducible apply Keeps.refl
    | ((with_reducible apply Keeps.after (finishAttempt_keeps ..)); rfl)
    | ((with_reducible apply Keeps.after (pauseAfterWait_keeps ..)); rfl)
    | split

theorem answerReceived_keeps (rx : Reception) (elapsed : Clock) (s : State) :
    Keeps [
      .clock, .attention, .shadow, .intake, .completed, .mem, .lineList, .lineCourse,
      .stationImages, .stationRest, .packs, .ramps, .doors, .doorUnit, .zones, .slots, .channels,
      .callUnit, .watch, .counts, .handovers] s
      (answerReceived rx elapsed s) := by
  dsimp only [answerReceived]
  repeat'
    first
    | with_reducible apply Keeps.refl
    | ((with_reducible apply Keeps.after (advanceClock_keeps ..)); rfl)
    | ((with_reducible apply Keeps.after (takeJudgement_keeps ..)); rfl)
    | split

theorem windowClosed_keeps (s : State) :
    Keeps [
      .attention, .shadow, .intake, .completed, .mem, .lineList, .lineCourse, .stationImages,
      .stationRest, .packs, .ramps, .doors, .doorUnit, .zones, .slots, .channels, .callUnit, .watch,
      .counts, .handovers] s
      (windowClosed s) := by
  dsimp only [windowClosed]
  repeat'
    first
    | with_reducible apply Keeps.refl
    | ((with_reducible apply Keeps.after (finishAttempt_keeps ..)); rfl)
    | split

theorem pauseOver_keeps (s : State) : Keeps [.lineCourse] s (pauseOver s) := by
  unfold pauseOver
  split
  · exact setCourse_keeps _ _ rfl rfl
  · exact .refl _ _

theorem settlingOver_keeps (s : State) :
    Keeps [.lineCourse, .stationSequences] s
      (settlingOver s) := by
  dsimp only [settlingOver]
  repeat'
    first
    | with_reducible apply Keeps.refl
    | ((with_reducible apply Keeps.after (endSettling_keeps ..)); rfl)
    | split

theorem setPins_keeps (p : Pins) (s : State) : Keeps [.pins] s { s with pins := p } :=
  .quiet
    (fun p hp => by
      cases p <;>
        first | (refine absurd ?_ hp; decide) | exact rfl | exact ⟨rfl, rfl⟩ | exact fun _ => rfl)
    rfl rfl rfl

theorem setStopLevel_keeps (asserted : Bool) (s : State) :
    Keeps [.clock, .pins, .attention] s (setStopLevel asserted s) :=
  .after (raiseFlag_keeps ..) rfl (.after (setPins_keeps _ _) rfl
    (.after (clockReaches_keeps ..) rfl (.refl _ _)))

theorem stopAsserted_keeps (s : State) :
    Keeps [.clock, .pins, .attention, .shadow, .completed,
      .mem, .lineList, .stationImages, .packs, .ramps, .doors, .doorUnit, .zones, .slots, .channels,
      .callUnit, .handovers] s
      (stopAsserted s) := by
  dsimp only [stopAsserted]
  repeat'
    first
    | with_reducible apply Keeps.refl
    | ((with_reducible apply Keeps.after (doorsDeckStop_keeps ..)); rfl)
    | ((with_reducible apply Keeps.after (rampsDeckStop_keeps ..)); rfl)
    | ((with_reducible apply Keeps.after (setStopLevel_keeps ..)); rfl)
    | split

theorem stopReleased_keeps (s : State) :
    Keeps [.clock, .pins, .attention] s
      (stopReleased s) := by
  dsimp only [stopReleased]
  repeat'
    first
    | with_reducible apply Keeps.refl
    | ((with_reducible apply Keeps.after (setStopLevel_keeps ..)); rfl)
    | split

theorem expire_keeps {touched : List Piece} {act : State → State}
    (hT : within [.clock] touched = true) (h : ∀ s, Keeps touched s (act s)) (t : Timer) (s : State) :
    Keeps touched s (expire t act s) := by
  unfold expire
  split
  · exact ((atExpiry_keeps ..).mono hT).trans (h _)
  · exact .refl _ _

theorem stall_keeps (r : Fin 4) (s : State) :
    Keeps [.clock, .attention, .shadow, .completed, .mem,
      .lineList, .stationImages, .packs, .ramps, .handovers] s
      (stall r s) := by
  dsimp only [stall]
  repeat'
    first
    | with_reducible apply Keeps.refl
    | ((with_reducible apply Keeps.after (stallRamp_keeps ..)); rfl)
    | ((with_reducible apply Keeps.after (clockReaches_keeps ..)); rfl)
    | split

theorem playLimitOver_keeps (z : Fin 8) (s : State) :
    Keeps [.attention, .shadow, .completed, .mem,
      .lineList, .stationImages, .slots, .channels] s
      (playLimitOver z s) := by
  dsimp only [playLimitOver]
  repeat'
    first
    | with_reducible apply Keeps.refl
    | ((with_reducible apply Keeps.after (silenceChannel_keeps ..)); rfl)
    | ((with_reducible refine Keeps.after (setChannel_keeps _ _ _ ?_) ?_ ?_); rfl; rfl)

theorem gapOver_keeps (i : Fin 16) (s : State) :
    Keeps [.attention, .shadow, .completed, .mem,
      .lineList, .stationImages, .slots, .channels] s
      (gapOver i s) := by
  dsimp only [gapOver]
  repeat'
    first
    | with_reducible apply Keeps.refl
    | ((with_reducible apply Keeps.after (startTest_keeps ..)); rfl)
    | ((with_reducible apply Keeps.after (beginRepeat_keeps ..)); rfl)
    | ((with_reducible apply Keeps.after (setSlot_keeps ..)); rfl)

theorem deliver_keeps {touched : List Piece} {act : State → State}
    (hT : within [.handovers] touched = true) (h : ∀ s, Keeps touched s (act s)) (x : Handover) (s : State) :
    Keeps touched s (deliver x act s) := by
  unfold deliver
  split
  · exact ((dropHandover_keeps ..).mono hT).trans (h _)
  · exact .refl _ _

end Sys2Proof.Machine
end

