-- ==== Sys2Proof/Laws/PerInstr.lean ====
section
/-! SUPPORT. The family of statements made of every command as syntax: what it takes for a command to be
ill-formed. One lemma for each constructor of Instr. -/

namespace Sys2Proof.Laws.Family

-- One theorem at a time: many at once take much memory.
set_option Elab.async false

/-- A command is well-formed but for two: a write of enables with the restart code, and an answer that does not
begin in the window or is longer than a frame (R174, R8, R3). -/
def Statement (i : Instr) : Prop :=
  i.wellFormed = false ↔
    (∃ value, i = .portControlEnables value ∧ hasRestartCode value = true) ∨
    ∃ rx elapsed, i = .answerReceived rx elapsed ∧
      (rx.beginsInWindow = false ∨ rx.atMostOneFrame = false)

theorem powerOnReset (strapA : Bool) (strapB : Bool) (stopPin : Bool) :
    Statement (.powerOnReset strapA strapB stopPin) := by simp [Statement, Instr.wellFormed]
theorem startingComplete : Statement .startingComplete := by simp [Statement, Instr.wellFormed]
theorem restartCommand (low : BitVec 12) :
    Statement (.restartCommand low) := by simp [Statement, Instr.wellFormed]
theorem portControlEnables (value : Word) :
    Statement (.portControlEnables value) := by simp [Statement, Instr.wellFormed]
theorem attentionWrite (value : Word) :
    Statement (.attentionWrite value) := by simp [Statement, Instr.wellFormed]
theorem registerWriteNoEffect (register : ReadOnlyRegister) (value : Word) :
    Statement (.registerWriteNoEffect register value) := by simp [Statement, Instr.wellFormed]
theorem hostWrite (address : BitVec 14) (value : Word) :
    Statement (.hostWrite address value) := by simp [Statement, Instr.wellFormed]
theorem post (card : Fin 32) : Statement (.post card) := by simp [Statement, Instr.wellFormed]
theorem withdrawal (card : Fin 32) : Statement (.withdrawal card) := by simp [Statement, Instr.wellFormed]
theorem unknownOrderKind : Statement .unknownOrderKind := by simp [Statement, Instr.wellFormed]
theorem loadTable : Statement .loadTable := by simp [Statement, Instr.wellFormed]
theorem startDeck : Statement .startDeck := by simp [Statement, Instr.wellFormed]
theorem cancel : Statement .cancel := by simp [Statement, Instr.wellFormed]
theorem stationEnable : Statement .stationEnable := by simp [Statement, Instr.wellFormed]
theorem stationDisable : Statement .stationDisable := by simp [Statement, Instr.wellFormed]
theorem rampLower : Statement .rampLower := by simp [Statement, Instr.wellFormed]
theorem rampRaise : Statement .rampRaise := by simp [Statement, Instr.wellFormed]
theorem rampHold : Statement .rampHold := by simp [Statement, Instr.wellFormed]
theorem rampResume : Statement .rampResume := by simp [Statement, Instr.wellFormed]
theorem rampClear : Statement .rampClear := by simp [Statement, Instr.wellFormed]
theorem doorClose : Statement .doorClose := by simp [Statement, Instr.wellFormed]
theorem doorOpen : Statement .doorOpen := by simp [Statement, Instr.wellFormed]
theorem doorClear : Statement .doorClear := by simp [Statement, Instr.wellFormed]
theorem zoneAlert : Statement .zoneAlert := by simp [Statement, Instr.wellFormed]
theorem zoneSeal : Statement .zoneSeal := by simp [Statement, Instr.wellFormed]
theorem zoneRelease : Statement .zoneRelease := by simp [Statement, Instr.wellFormed]
theorem call : Statement .call := by simp [Statement, Instr.wellFormed]
theorem callStop : Statement .callStop := by simp [Statement, Instr.wellFormed]
theorem watchArm : Statement .watchArm := by simp [Statement, Instr.wellFormed]
theorem watchDisarm : Statement .watchDisarm := by simp [Statement, Instr.wellFormed]
theorem watchClear : Statement .watchClear := by simp [Statement, Instr.wellFormed]
theorem deckStopPinChange (asserted : Bool) :
    Statement (.deckStopPinChange asserted) := by simp [Statement, Instr.wellFormed]
theorem deckStopAsserted : Statement .deckStopAsserted := by simp [Statement, Instr.wellFormed]
theorem deckStopReleased : Statement .deckStopReleased := by simp [Statement, Instr.wellFormed]
theorem frameSent : Statement .frameSent := by simp [Statement, Instr.wellFormed]
theorem answerReceived (rx : Reception) (elapsed : Clock) :
    Statement (.answerReceived rx elapsed) := by
  cases h : rx.beginsInWindow <;> simp [Statement, Instr.wellFormed, h]
theorem noAnswer : Statement .noAnswer := by simp [Statement, Instr.wellFormed]
theorem pauseEnd : Statement .pauseEnd := by simp [Statement, Instr.wellFormed]
theorem settlingEnd : Statement .settlingEnd := by simp [Statement, Instr.wellFormed]
theorem durationTimerExpiry (r : Fin 4) :
    Statement (.durationTimerExpiry r) := by simp [Statement, Instr.wellFormed]
theorem stageLimitExpiry (r : Fin 4) :
    Statement (.stageLimitExpiry r) := by simp [Statement, Instr.wellFormed]
theorem blankTimerExpiry (r : Fin 4) :
    Statement (.blankTimerExpiry r) := by simp [Statement, Instr.wellFormed]
theorem leadTimerExpiry (r : Fin 4) :
    Statement (.leadTimerExpiry r) := by simp [Statement, Instr.wellFormed]
theorem stall (r : Fin 4) : Statement (.stall r) := by simp [Statement, Instr.wellFormed]
theorem grantNotice (p : Fin 2) (q : Requester) :
    Statement (.grantNotice p q) := by simp [Statement, Instr.wellFormed]
theorem preemptionDemand (p : Fin 2) (r : Fin 4) :
    Statement (.preemptionDemand p r) := by simp [Statement, Instr.wellFormed]
theorem zoneHold (z : Fin 8) : Statement (.zoneHold z) := by simp [Statement, Instr.wellFormed]
theorem packWithdrawal (p : Fin 2) (q : Requester) :
    Statement (.packWithdrawal p q) := by simp [Statement, Instr.wellFormed]
theorem pumpStartLimitExpiry (p : Fin 2) :
    Statement (.pumpStartLimitExpiry p) := by simp [Statement, Instr.wellFormed]
theorem recoveryDwellExpiry (p : Fin 2) :
    Statement (.recoveryDwellExpiry p) := by simp [Statement, Instr.wellFormed]
theorem parkHoldExpiry (p : Fin 2) : Statement (.parkHoldExpiry p) := by simp [Statement, Instr.wellFormed]
theorem warningTimerExpiry (d : Fin 32) :
    Statement (.warningTimerExpiry d) := by simp [Statement, Instr.wellFormed]
theorem doorStart (d : Fin 32) : Statement (.doorStart d) := by simp [Statement, Instr.wellFormed]
theorem motionTimerExpiry (d : Fin 32) :
    Statement (.motionTimerExpiry d) := by simp [Statement, Instr.wellFormed]
theorem retryTimerExpiry (d : Fin 32) :
    Statement (.retryTimerExpiry d) := by simp [Statement, Instr.wellFormed]
theorem packWaitTimerExpiry (d : Fin 32) :
    Statement (.packWaitTimerExpiry d) := by simp [Statement, Instr.wellFormed]
theorem zoneDemand (z : Fin 8) : Statement (.zoneDemand z) := by simp [Statement, Instr.wellFormed]
theorem alertTimerExpiry (z : Fin 8) :
    Statement (.alertTimerExpiry z) := by simp [Statement, Instr.wellFormed]
theorem staggerTimerExpiry (z : Fin 8) :
    Statement (.staggerTimerExpiry z) := by simp [Statement, Instr.wellFormed]
theorem zoneSealingNotice (z : Fin 8) :
    Statement (.zoneSealingNotice z) := by simp [Statement, Instr.wellFormed]
theorem playLimitTimerExpiry (z : Fin 8) :
    Statement (.playLimitTimerExpiry z) := by simp [Statement, Instr.wellFormed]
theorem gapTimerExpiry (slot : Fin 16) :
    Statement (.gapTimerExpiry slot) := by simp [Statement, Instr.wellFormed]

end Sys2Proof.Laws.Family
end

