-- ==== Sys2Proof/Laws/Publish.lean ====
section
/-! SUPPORT. When the end of a command does nothing: no image record has changed and an idle line has nothing to
send. Then the end of a card, which no image record shows. -/

namespace Sys2Proof.Machine

-- One theorem at a time: many at once take much memory.
set_option Elab.async false

/-- An operation that does nothing for each element does nothing for the list. -/
theorem forList_same {α : Type} {f : α → State → State} {s : State} :
    ∀ {l : List α}, (∀ i ∈ l, f i s = s) → forList l f s = s
  | [], _ => rfl
  | i :: l, h => by
    have hi : f i s = s := h i (by simp)
    have hl : forList l f s = s := forList_same fun j hj => h j (by simp [hj])
    simpa [forList, hi] using hl

/-- With no shown field changed nothing is rewritten. -/
theorem publish_same {s : State} (h : s.changed = []) : publish onChange s = s := by
  have h1 : forList ownerRecords
      (fun id t => if isRewritten onChange t id then rewriteWatched id t else t) s = s :=
    forList_same fun id _ => by simp [isRewritten, onChange, h]
  have h2 : rewriteChannels (fun k => onChange (.watch k)) s = s :=
    forList_same fun k _ => by simp [onChange]
  simp only [publish]
  rw [h1, h2]

/-- A line with nothing to send begins nothing. -/
theorem chooseTransaction_rests {s : State} (h : s.lineRests) : chooseTransaction s = s := by
  unfold chooseTransaction
  split
  · next hm =>
    obtain ⟨he, hv, hf⟩ := h hm
    cases hn : s.line.nextSide <;> simp [he, choosePoll, hv, hf, hn, setLine]
  · rfl

/-- A command that notes no change, with nothing to send after it, does its acts alone. -/
theorem commandEvent_same {act : State → State} {s : State}
    (hr : (act { s with changed := [] }).lineRests) (h : (act { s with changed := [] }).changed = []) :
    commandEvent onChange act s = { act { s with changed := [] } with changed := s.changed } := by
  simp only [commandEvent, asEvent]
  rw [chooseTransaction_rests hr, publish_same h]

/-- Two states with the same records and the same line; they may differ in cards, memory and port
registers, and in what is noted as changed. -/
structure SameRecords (s t : State) : Prop where
  line : t.line = s.line
  tables : t.tables = s.tables
  stations : t.stations = s.stations
  packs : t.packs = s.packs
  ramps : t.ramps = s.ramps
  doors : t.doors = s.doors
  zones : t.zones = s.zones
  slots : t.slots = s.slots
  channels : t.channels = s.channels
  watch : t.watch = s.watch

/-- No image record shows more than the records. -/
theorem SameRecords.view {s t : State} (h : SameRecords s t) (id : RecordId) : t.view id = s.view id := by
  have hw : ∀ n, channelWord t n = channelWord s n := by
    intro n; funext z; simp only [channelWord, h.channels]
  cases id <;>
    simp only [State.view, State.slotView, hw, h.tables, h.stations, h.packs, h.ramps, h.doors, h.zones,
      h.slots, h.watch]

theorem SameRecords.qualifies {s t : State} (h : SameRecords s t) : t.qualifies = s.qualifies := by
  funext i c; simp only [State.qualifies, State.stationKind, h.tables, h.stations]

theorem SameRecords.rosterSearch {s t : State} (h : SameRecords s t) :
    ∀ (n : Nat) (p : Fin 48) (c : Fin 4),
      Sys2Proof.Machine.rosterSearch t n p c = Sys2Proof.Machine.rosterSearch s n p c
  | 0, _, _ => rfl
  | n + 1, p, c => by
    unfold Sys2Proof.Machine.rosterSearch
    rw [h.qualifies]
    simp only [SameRecords.rosterSearch h n]

theorem SameRecords.lineRests {s t : State} (h : SameRecords s t) (hr : s.lineRests) : t.lineRests := by
  intro hm
  rw [h.line] at hm
  obtain ⟨he, hv, hf⟩ := hr hm
  refine ⟨by rw [h.line]; exact he, ?_, ?_⟩
  · unfold State.rosterVisit at hv ⊢
    rw [h.rosterSearch, h.line]; exact hv
  · simp only [State.fastVisit, State.fastSet, h.line, h.tables, h.stations, h.ramps] at hf ⊢
    exact hf

theorem SameRecords.trans {s t u : State} (h : SameRecords s t) (k : SameRecords t u) : SameRecords s u :=
  ⟨k.line.trans h.line, k.tables.trans h.tables, k.stations.trans h.stations, k.packs.trans h.packs,
    k.ramps.trans h.ramps, k.doors.trans h.doors, k.zones.trans h.zones, k.slots.trans h.slots,
    k.channels.trans h.channels, k.watch.trans h.watch⟩

/-- What is noted as changed is no record. -/
theorem changed_sameRecords (s : State) (l : List RecordId) : SameRecords s { s with changed := l } := by
  constructor <;> rfl

/-- The end of a card changes no record. -/
theorem endCardAs_sameRecords (c : CardId) (o : OrderOutcome) (d : Nat) (st : CardState) (s : State) :
    SameRecords s (endCardAs c o d st s) := by
  constructor <;> simp [endCardAs]

theorem endCard_sameRecords (c : CardId) (o : OrderOutcome) (d : Nat) (s : State) :
    SameRecords s (endCard c o d s) := endCardAs_sameRecords ..

/-- The taking of a card changes no record. -/
theorem takeHead_sameRecords (c : CardId) (s : State) : SameRecords s (takeHead c s) := by
  constructor <;> simp [takeHead]

/-- The end of a card neither reads nor writes what is noted as changed. -/
theorem endCard_setChanged (c : CardId) (o : OrderOutcome) (d : Nat) (s : State) (l : List RecordId) :
    endCard c o d { s with changed := l } = { endCard c o d s with changed := l } := by
  simp only [endCard, endCardAs, raiseFlag, setCardState, writeWord]

theorem takeHead_setChanged (c : CardId) (s : State) (l : List RecordId) :
    takeHead c { s with changed := l } = { takeHead c s with changed := l } := by
  simp only [takeHead, removeIntake, setCardState]

/-- A card that is taken and ended at once: nothing else happens while the line is at work or at rest. -/
theorem commandEvent_takenAndEnded {act : State → State} {c : CardId} {o : OrderOutcome} {d : Nat} {s : State}
    (hr : s.lineRests)
    (ha : act { s with changed := [] } = endCard c o d (takeHead c { s with changed := [] })) :
    commandEvent onChange act s = endCard c o d (takeHead c s) := by
  have h := (changed_sameRecords s []).trans
    ((takeHead_sameRecords c _).trans (endCard_sameRecords c o d _))
  have hs : (endCard c o d (takeHead c s)).changed = s.changed := by
    simp [endCard, takeHead, removeIntake, setCardState]
  rw [commandEvent_same (by rw [ha]; exact h.lineRests hr)
    (by rw [ha, takeHead_setChanged, endCard_setChanged]), ha, takeHead_setChanged, endCard_setChanged, ← hs]

/-- An order that is refused at its taking ends its card and does nothing else. -/
theorem commandEvent_refused {k : OrderKind} {owner : CardId → State → State} {c : CardId} {o : OrderOutcome}
    {d : Nat} {s : State} (hr : s.lineRests) (hc : s.headOrder k = some c)
    (ho : refuseAtTaking k c s = some (o, d)) :
    commandEvent onChange (takeOrder k owner) s = endCard c o d (takeHead c s) := by
  refine commandEvent_takenAndEnded hr ?_
  unfold takeOrder
  rw [show State.headOrder { s with changed := [] } k = some c from hc]
  dsimp only
  rw [show refuseAtTaking k c { s with changed := [] } = some (o, d) from ho]

end Sys2Proof.Machine
end

