-- ==== Sys2Proof/Tests/Slice0.lean ====
section
/-! SUPPORT. The model's own tests: the smoke test of WellFormed, worked values of the spec, one small step for
each family, and for every statement of the provers that has hypotheses a state that meets them
(`witness_<Statement>`, a clause of its own `witness_<Statement>_<clause>`). -/

open Sys2Proof Sys2Proof.Machine

namespace Sys2Proof.Tests

-- One theorem at a time: each evaluates in the kernel, and many at once take much memory.
set_option Elab.async false

/-! ### Well-formed commands -/

theorem test_enables_with_restart_code_ill_formed :
    Instr.wellFormed (.portControlEnables 0x9001) = false := by decide

theorem test_answer_outside_the_window_ill_formed :
    Instr.wellFormed (.answerReceived ⟨48, List.replicate 14 false⟩ 0) = false := by decide

theorem test_answer_with_a_short_break_ill_formed :
    Instr.wellFormed (.answerReceived ⟨0, List.replicate 10 false⟩ 0) = false := by decide

theorem test_answer_longer_than_a_frame_ill_formed :
    Instr.wellFormed (.answerReceived ⟨0, List.replicate 14 false ++ List.replicate 285 true⟩ 0) = false := by
  decide +kernel

theorem test_answer_at_the_edges_well_formed :
    Instr.wellFormed (.answerReceived ⟨47, List.replicate 11 false ++ List.replicate 284 true⟩ 0) = true := by
  decide +kernel

/-- No row of the opcode table has bits. -/
theorem test_no_word_spells_a_command : decodeTableWord 16 1 = none := by decide

/-! ### Worked values of the spec -/

/-- 1.2: the POLL of station 5, and its ACK to SET 07. -/
theorem test_crc_of_poll : frameBytes 5 kindPoll [] = [0x05, 0x01, 0x00, 0xD5] := by decide +kernel

theorem test_crc_of_ack : frameBytes 5 kindAck [7] = [0x05, 0x12, 0x01, 0x07, 0x3A] := by decide +kernel

/-- R2: start bit low, the data bits of 0x05 with the least significant first, stop bit high. -/
theorem test_character_on_the_line :
    characterLevels 0x05 = [false, true, false, true, false, false, false, false, false, true] := by decide

/-- R2, R7: in the ACK of station 5, the stop bit of ADDRESS is low; then KIND is low for 11 bit times. -/
theorem test_framing_fault_and_break_inside :
    let levels := frameLevels [0x05, 0x12, 0x01, 0x07, 0x3A]
    receiveFrame ⟨0, levels⟩ = some [0x05, 0x12, 0x01, 0x07, 0x3A] ∧
      receiveFrame ⟨0, levels.set 25 false⟩ = none ∧
      receivedItems ⟨0, levels.take 26 ++ List.replicate 11 false ++ levels.drop 37⟩ =
        [.char 2 0x05 true, .lowRun 0] := by decide +kernel

/-- 12: the state words of board card 0, board card 31 and action card 7. -/
theorem test_card_addresses :
    cardAddress 0 0 = 0x0040 ∧ cardAddress 31 0 = 0x0230 ∧ cardAddress 39 15 = 0x02BF := by decide

/-! ### A small deck -/

/-- A state that runs with a small deck: ramp 1 at station 1, door 1 (spring) and door 2 (hydraulic) at station
2, zone 1 with station 3 for its calls, pack 1 at station 4. -/
def stage : StageRecord := ⟨1, .time 150, 2, 30, 0⟩
def ramp : RampEntry where
  station := 0
  pack := 0
  zone := 0
  travel := 16
  nominal := 400
  depth := 4
  lead := 32
  blank := 16
  stallMultiple := 3
  warn := false
  gates := []
  lowerFirst := 1
  raiseFirst := 1
  stages := Vector.replicate 12 stage
def spring : DoorEntry := ⟨.springFire, 1, 0, 0, 2, 20, 20, 3, 3⟩
def hydraulic : DoorEntry := ⟨.hydraulicFire 0, 1, 1, 0, 0, 20, 20, 3, 3⟩
def zone : ZoneEntry := ⟨[], some 2, [0], true, 5, 1, 1, 0⟩
def fitted (k : StationKind) : StationEntry := ⟨k, 2, true⟩
def deckTables : Tables where
  stations := (((Tables.start.stations.set 0 (fitted .ramp)).set 1 (fitted .door)).set 2
    (fitted .call)).set 3 (fitted .pack)
  packs := Tables.start.packs.set 0 ⟨some 3, 2, 10, 1⟩
  ramps := Tables.start.ramps.set 0 (some ramp)
  doors := (Tables.start.doors.set 0 (some spring)).set 1 (some hydraulic)
  zones := Tables.start.zones.set 0 zone
  adopted := 31
def base : State := { State.reset with part := .running, tables := deckTables }

def withRamp (f : RampRecord → RampRecord) (s : State) : State := setRamp 0 (f s.ramps[0]) s
def withDoor (d : Fin 32) (f : DoorRecord → DoorRecord) (s : State) : State := putDoor d (f s.doors[d]) s
def withZone (f : ZoneRecord → ZoneRecord) (s : State) : State := setZone 0 (f s.zones[0]) s
def withPack (f : PackRecord → PackRecord) (s : State) : State := setPack 0 (f s.packs[0]) s
def withSlot (f : SlotRecord → SlotRecord) (s : State) : State := setSlot 0 (f s.slots[0]) s
def withStation (i : Fin 48) (st : StationState) (awaited : Bool) (s : State) : State :=
  setStation i { s.stations[i] with state := st, reportAwaited := awaited } s
def withWatch (k : Fin 8) (f : WatchRecord → WatchRecord) (s : State) : State := setWatch k (f s.watch[k]) s
def withLine (m : LineMode) (t : Option Transaction) (s : State) : State :=
  setLine { s.line with mode := m, transaction := t } s
def withCard (c : CardId) (st : CardState) (s : State) : State := setCardState c st s
def inPart (p : PartState) (s : State) : State := { s with part := p }
def handing (h : Handover) (s : State) : State := { s with handovers := [h] }

/-- Board card 0 at the head of the intake list with an order: kind code, target and parameters. -/
def ordered (kind target : Nat) (params : List Nat) (s : State) : State :=
  let words := [kind, 0, target] ++ params
  let mem := words.zipIdx.foldl
    (fun m x => Memory.write m (cardAddress 0 (x.2 + 1)) (BitVec.ofNat 16 x.1)) s.mem
  setCardState 0 .posted { s with mem := mem, cards := { s.cards with intake := [0] } }

def ordering (k : OrderKind) (target : Nat) (s : State) : State := ordered k.code target [] s

/-- The outcome and the state of board card 0 after a command. -/
def cardAfter (c : Instr) (s : State) : Option (Word × CardState) :=
  match exec c s with
  | .next t => some (t.cardWord 0 12, t.cardState 0)
  | _ => none

def after {α : Type} (c : Instr) (s : State) (f : State → α) : Option α :=
  match exec c s with
  | .next t => some (f t)
  | _ => none

/-! ### One step of each family -/

theorem test_post_of_a_taken_card_is_misuse :
    after (.post 0) (withCard 0 .taken base) (fun t => (t.misuse, t.hasFlag .misuse)) =
      some (⟨0x0040, .state⟩, true) := by decide +kernel

theorem test_unknown_kind_refused :
    cardAfter .unknownOrderKind (ordered 0x7F 0 [] base) = some (0x20, .refused) := by decide +kernel

theorem test_ramp_lower_refused_at_deck_stop :
    cardAfter .rampLower (ordering .rampLower 1
      { withRamp (fun r => { r with state := .stowed }) base with
        pins := { base.pins with stopLevel := true } }) = some (0x24, .refused) := by decide +kernel

theorem test_zone_seal_of_a_sealed_zone_is_ok :
    cardAfter .zoneSeal (ordering .zoneSeal 1 (withZone (fun r => { r with state := .sealed }) base)) =
      some (0x01, .done) := by decide +kernel

theorem test_call_stop_of_a_free_slot_refused :
    cardAfter .callStop (ordering .callStop 15 base) = some (0x23, .refused) := by decide +kernel

theorem test_watch_disarm_is_ok :
    cardAfter .watchDisarm (ordering .watchDisarm 7 base) = some (0x01, .done) := by decide +kernel

theorem test_station_order_of_kind_none_refused :
    cardAfter .stationEnable (ordering .stationEnable 48 base) = some (0x21, .refused) := by
  decide +kernel

theorem test_frame_sent_listens :
    after .frameSent (withLine .sending none base) (·.line.mode) = some .listening := by decide +kernel

theorem test_stage_limit_faults :
    after (.stageLimitExpiry 0)
      (withRamp (fun r => { r with state := .moving, stage := 1, limitTimer := some ⟨0, 3000⟩ }) base)
      (fun t => (t.ramps[0].state, t.ramps[0].faultCause, t.clock)) =
      some (.fault, .timedOut, 3000) := by decide +kernel

theorem test_pump_start_limit_fails_the_pack :
    after (.pumpStartLimitExpiry 0)
      (withPack (fun r => { r with state := .starting, startTimer := some ⟨0, 2000⟩ }) base)
      (fun t => (t.packs[0].state, t.packs[0].failureCause)) = some (.failed, .startLimit) := by
  decide +kernel

theorem test_motion_limit_fails_a_closing_door :
    after (.motionTimerExpiry 0)
      (withDoor 0 (fun r =>
        { r with state := .closing, demand := .close, origin := .host, motionTimer := some ⟨0, 9⟩ }) base)
      (·.doors[0].state) = some .failed := by decide +kernel

/-! ### Witnesses: the machine -/

theorem witness_EmptyQueueDoesOwnWork :
    base.pending = [] ∧ base.ownNext = none ∧
      (ordering .watchDisarm 7 base).pending = [] ∧
      (ordering .watchDisarm 7 base).ownNext = some .watchDisarm := by decide +kernel

def queued : State := { base with pending := [.hostWrite 0x0400 7] }

theorem witness_StepKeepsMemoryOk : queued.memoryOk = true ∧ goesOn (step queued) = true := by
  decide +kernel

theorem witness_StepKeepsCountsEven : queued.countsEven ∧ goesOn (step queued) = true := by
  refine ⟨fun id => ?_, by decide +kernel⟩
  cases id with
  | station i => revert i; decide +kernel
  | pack i => revert i; decide +kernel
  | ramp i => revert i; decide +kernel
  | door i => revert i; decide +kernel
  | zone i => revert i; decide +kernel
  | slot i => revert i; decide +kernel
  | watch i => revert i; decide +kernel

def idleLine (s : State) : State := withLine .idle none s

theorem witness_StepKeepsTheLineAtWork :
    State.lineRests (idleLine queued) ∧ goesOn (step (idleLine queued)) = true := by
  unfold State.lineRests; decide +kernel

/-- Two stations wait for a SET, the first of them LOST and in its rejoin. -/
def listed : State :=
  let s := setLine { queued.line with pending := [⟨0, 1, true⟩, ⟨47, 2, false⟩] } queued
  setStation 0 { s.stations[0] with state := .lost, rejoinPending := true } s

theorem witness_StepKeepsTheLineAtWork_list :
    listed.listOnce ∧ listed.rejoinsLost ∧ listed.stations[0].rejoinPending = true ∧
      goesOn (step listed) = true := by
  unfold State.listOnce State.rejoinsLost; decide +kernel

theorem witness_MemoryChangesOnlyAtEndedCards :
    goesOn (exec .watchDisarm (ordering .watchDisarm 7 base)) = true := by decide +kernel

theorem witness_FlagsFallOnlyByTheirCommands :
    hasRestartCode 0x8FFF = false ∧ goesOn (exec (.portControlEnables 0x8FFF) base) = true ∧
      goesOn (exec .noAnswer base) = true := by decide +kernel

/-- The watch unit's channel 8 watches a state of door 1. -/
def watchingDoor (st : DoorState) (s : State) : State :=
  withWatch 7 (fun r =>
    { r with
      armed := true, subject := .doorState, number := 1, mask := 0xFFFF
      reference := BitVec.ofNat 16 st.code }) s

/-- R165: a demand set taken early at the release of its zone has its own rewrite, which shows WARNING. -/
theorem test_an_early_demand_set_is_evaluated :
    after .zoneRelease
      (watchingDoor .warning (handing (.zoneDemand 0) (withDoor 0 (fun r => { r with state := .opened })
        (ordering .zoneRelease 1 (withZone (fun r => { r with state := .sealing }) base)))))
      (fun t => (t.watch[7].matched, t.doors[0].state == .warning)) = some (true, false) := by
  decide +kernel

/-- R165: a start that is asked for and given at one event rewrites the zone's record once. -/
theorem test_a_start_request_out_and_back_is_one_rewrite :
    let s := withDoor 0 (fun r =>
      { r with state := .warning, demand := .close, origin := .zone, warningTimer := some ⟨0, 9⟩ }) base
    after (.warningTimerExpiry 0) s (fun t =>
      (t.inFlight (.doorStart 0), t.changeCount (.zone 0), t.zones[0].startRequests)) =
      some (true, (2 : Word), s.zones[0].startRequests) := by decide +kernel

theorem witness_EveryChangeIsOneRewrite :
    goesOn (exec .rampHold (ordering .rampHold 1 base)) = true ∧
      after .watchDisarm (ordering .watchDisarm 7 (withWatch 7 (fun r => { r with armed := true }) base))
        (fun t => t.changeCount (.watch 7)) = some 2 := by decide +kernel

theorem witness_QuietStateChangesOnlyByItsCommands : goesOn (exec .settlingEnd base) = true := by
  decide +kernel

/-! ### Witnesses: the port -/

theorem witness_ResetIsPowerOn :
    State.reset.part = .starting ∧ base.part ≠ .starting := by decide +kernel

theorem witness_PortRegisters :
    hasRestartCode 0x8FFF = false ∧ hasRestartCode 0x9000 = true ∧
      ({ base with cards := { base.cards with intake := List.finRange 40 } } : State).cards.intake.length
        ≤ 40 := by decide +kernel

def stopFlag : State := { base with attention := 0x200 }

theorem witness_AttentionLineFollowsFlagsAndEnables :
    (stopFlag.hasFlag .stop = true ∧ (0x0200 : Word).getLsbD Flag.stop.bit = true ∧
      hasRestartCode 0x0200 = false) ∧
    ∀ f : Flag, ({ stopFlag with enables := 0x3FF } : State).hasFlag f = true →
      ({ stopFlag with enables := 0x3FF } : State).enables.getLsbD f.bit = true →
      (0x01FF : Word).getLsbD f.bit = false := by
  refine ⟨by decide +kernel, fun f => ?_⟩
  cases f <;> decide +kernel

theorem witness_RestartReturnsToUnconfigured :
    base.part ≠ .starting ∧ State.reset.part = .starting := by decide +kernel

theorem witness_RestartReturnsToUnconfigured_cards :
    let s := withCard 32 .taken (withCard 0 .posted base)
    s.part ≠ .starting ∧ s.memoryOk = true ∧ (s.cardState 0 = .posted ∨ s.cardState 0 = .taken) ∧
      (s.cardState 32 = .posted ∨ s.cardState 32 = .taken) ∧ s.cardState 39 ≠ .posted ∧
      s.cardState 39 ≠ .taken := by decide +kernel

theorem witness_HostWriteByArea :
    State.reset.part = .starting ∧ base.part ≠ .starting ∧
      ((0x003F : BitVec 14).toNat < 0x0040 ∧ 0x1000 ≤ (0x1000 : BitVec 14).toNat ∧
        (0x179F : BitVec 14).toNat < 0x17A0) ∧
      0x02C0 ≤ (0x02C0 : BitVec 14).toNat ∧ (0x0FFF : BitVec 14).toNat < 0x1000 ∧
        0x17A0 ≤ (0x17A0 : BitVec 14).toNat :=
  ⟨by decide +kernel, by decide +kernel, by simp, by simp⟩

theorem witness_HostWriteByArea_readBack :
    base.memoryOk = true ∧ base.part ≠ .starting ∧ isView (0x02BF : BitVec 14).toNat = false ∧
      ∀ c k, cardAt (0x02BF : BitVec 14).toNat = some (c, k) → base.cardState c ≠ .taken :=
  ⟨by decide +kernel, by decide +kernel, by decide +kernel,
    fun c _ _ => (by decide +kernel : ∀ c, base.cardState c ≠ .taken) c⟩

theorem witness_CardWritesAreJudgedByTheShadow :
    base.part ≠ .starting ∧ base.cardState (boardCard 31) = .free ∧
      (withCard 31 .posted base).part ≠ .starting ∧
      (withCard 31 .posted base).cardState (boardCard 31) = .posted ∧ (1 : Fin 16) ≠ 0 := by
  decide +kernel

/-- All of a state's cards but one are held by no record: a check of `cardsSound`. -/
def heldByOne (s : State) (o : CardOwner) : Prop :=
  (s.cards.intake.Nodup ∧ ∀ c, c ∈ s.cards.intake ↔ s.cardState c = .posted) ∧
    (∀ r, .ramp r ≠ o → s.ramps[r].card = none) ∧ (∀ d, .door d ≠ o → s.doors[d].card = none) ∧
    (∀ z, .zone z ≠ o → s.zones[z].card = none) ∧ (∀ i, .call i ≠ o → s.slots[i].card = none) ∧
    (∀ c, s.heldCard o = some c → s.cardState c = .taken) ∧
    ∀ d : Fin 32, s.doors[d].card ≠ none → s.doors[d].origin ≠ .zone ∧ s.doorEntry d ≠ none

theorem cardsSound_of_heldByOne {s : State} {o : CardOwner} (h : heldByOne s o) : s.cardsSound := by
  obtain ⟨hi, hr, hd, hz, hc, ht, hdoor⟩ := h
  have only : ∀ x c, s.heldCard x = some c → x = o := by
    intro x c hx
    apply Classical.byContradiction
    intro hne
    cases x with
    | ramp r => exact nomatch (hr r hne).symm.trans hx
    | door d => exact nomatch (hd d hne).symm.trans hx
    | zone z => exact nomatch (hz z hne).symm.trans hx
    | call i => exact nomatch (hc i hne).symm.trans hx
  exact ⟨hi, fun x c hx => ht c (only x c hx ▸ hx),
    fun x y c hx hy => (only x c hx).trans (only y c hy).symm, hdoor⟩

/-- CANCEL of the POSTED board card 0 waits in the queue while zone 1 holds the TAKEN action card 7. -/
def soundCards : State :=
  { withCard 39 .taken (withZone (fun r => { r with card := some 39 }) (ordering .cancel 0 base)) with
    pending := [.cancel] }

theorem witness_StepKeepsTheCardsSound : soundCards.cardsSound ∧ goesOn (step soundCards) = true :=
  ⟨cardsSound_of_heldByOne (o := .zone 0) (by unfold heldByOne; decide +kernel), by decide +kernel⟩

/-- Door 1 shows the outputs of its kind, and a host write waits in the queue. -/
def shown : State := withDoor 0 (fun r => { r with outputs := doorOutputs .springFire r }) queued

theorem witness_OutputsFollowTheDoors :
    (DoorRecord.start.state ≠ .waiting ∧ DoorRecord.start.state ≠ .obstructed) ∧
      shown.outputsFollow ∧ goesOn (step shown) = true := by
  refine ⟨by decide, fun d e h => ?_, by decide +kernel⟩
  have hd : ∀ d : Fin 32, ((shown.doorEntry d).all fun e =>
      decide (shown.doors[d].outputs = doorOutputs e.kind shown.doors[d])) = true := by decide +kernel
  simpa [h] using hd d

/-- A state with the images that its records compose. -/
def composed (s : State) : State :=
  { s with stations := Vector.ofFn fun i : Fin 48 => { s.stations[i] with image := composeImage s i } }

theorem composed_imagesFollow (s : State) : (composed s).imagesFollow := by
  intro i
  have h : composeImage (composed s) i = composeImage s i := by
    refine composeImage_congr ?_ ?_ ?_ ?_ ?_ <;> dsimp only [composed] <;> intros <;> trivial
  rw [h]
  simp only [composed, Fin.getElem_fin, Vector.getElem_ofFn]

/-- Ramp 1's valves are on, pack 1's pump runs, door 1 warns and zone 1 plays. -/
def driven : State :=
  composed (setChannel 0 { queued.channels[0] with contribution := .play 5 true 9 }
    (withPack (fun r => { r with pumpRun := true }) (withRamp (fun r => { r with valves := 2 })
      (withDoor 0 (fun r => { r with outputs := { r.outputs with warning := true } }) queued))))

theorem witness_OutputsFollowTheDoors_images :
    driven.imagesFollow ∧ goesOn (step driven) = true ∧ driven.stationKind 1 = .door ∧
      driven.isRampStation 0 0 ∧ driven.isPackStation 3 0 ∧ driven.isCallStation 2 0 ∧
      driven.stationKind 47 = .none := by
  refine ⟨composed_imagesFollow _, ?_⟩
  unfold State.isRampStation State.isPackStation State.isCallStation; decide +kernel

/-- R6: the image bytes of the four kinds of station that take SETs, written out. -/
theorem test_images_of_the_four_kinds :
    imageBytes .ramp (composeImage driven 0) = [2] ∧ imageBytes .door (composeImage driven 1) = [0x04, 0x00] ∧
      imageBytes .call (composeImage driven 2) = [1, 5, 1, 9] ∧
      imageBytes .pack (composeImage driven 3) = [1] := by decide +kernel

/-! ### Witnesses: takings -/

theorem witness_RefusalsAtTaking_unknownKind :
    let s := ordered 0xFFFF 0 [] base
    s.memoryOk = true ∧ s.headCard = some 0 ∧ s.cardKind 0 = none := by decide +kernel

theorem witness_RefusalsAtTaking :
    (let s := ordering .rampHold 5 base;
      s.memoryOk = true ∧ s.headOrder .rampHold = some 0 ∧
        targetAllowed .rampHold 0 (s.cardTarget 0) = false) ∧
    (let s := ordering .call 0 base;
      s.headOrder .call = some 0 ∧ targetAllowed .call 0 (s.cardTarget 0) = true ∧
        failingParameter .call 0 s = some 1) ∧
    (let s := inPart .unconfigured (ordering .rampHold 4 base);
      s.headOrder .rampHold = some 0 ∧ targetAllowed .rampHold 0 (s.cardTarget 0) = true ∧
        failingParameter .rampHold 0 s = none ∧ s.part ≠ .running) := by decide +kernel

/-- LOAD TABLE of a table whose words are 0. -/
def loading (name : TableName) (p : PartState) : State :=
  inPart p (ordering .loadTable name.code { base with tables := Tables.start })

theorem witness_LoadTableAdoptsOrRefuses :
    (∀ name ∈ [TableName.packs, .stations],
      (loading name .unconfigured).memoryOk = true ∧
        (loading name .unconfigured).headOrder .loadTable = some 0 ∧
        refuseAtTaking .loadTable 0 (loading name .unconfigured) = none ∧
        (loading name .unconfigured).cardTarget 0 = name.code ∧
        (judgeLoad name (loading name .unconfigured)).toBool = true) ∧
    adoptionRewrites .packs (.pack 1) = true ∧
    (∀ p, (loading .packs .unconfigured).grantInFlight p = none) ∧
    (let s := writeWord 0x0580 49 (loading .packs .running);
      s.memoryOk = true ∧ refuseAtTaking .loadTable 0 s = none ∧ s.cardTarget 0 = TableName.packs.code ∧
        (judgeLoad .packs s).toBool = false) := by decide +kernel

/-- Pack 1 is fitted at station 4, whose kind is NONE. -/
def dangling : Tables := { Tables.start with packs := deckTables.packs, adopted := 31 }

theorem witness_LoadsAreJudged :
    (∀ name ∈ TableName.all, (loading name .unconfigured).memoryOk = true ∧
      (judgeLoad name (loading name .unconfigured)).toBool = true) ∧
    (let s := writeWord 0x0580 49 (loading .packs .unconfigured);
      (judgePackEntry (wordsAt s.mem 0x0580 8) 0 0).toBool = false ∧ (judgeLoad .packs s).toBool = false) ∧
    (dangling.has .packs = true ∧ dangling.has .stations = true ∧
      (crossCheck .packs dangling).isSome = true ∧ (crossCheck .stations dangling).isSome = true) ∧
    crossCheck .zones Tables.start = none := by decide +kernel

theorem witness_LoadsAreJudged_listsFit : dangling.listsFit := by
  refine ⟨fun r _ h => ?_, by decide +kernel⟩
  exact nomatch ((by decide +kernel : ∀ r : Fin 4, dangling.ramps[r] = none) r).symm.trans h

/-- LOAD TABLE in RUNNING over the small deck's tables, with the words of the new table in their area; `f` goes
over the state. -/
def replacing (name : TableName) (at_ : Nat) (words : List Nat) (f : State → State) : State :=
  f (words.zipIdx.foldl (fun s x => writeWord (at_ + x.2) (BitVec.ofNat 16 x.1) s)
    (ordering .loadTable name.code base))

/-- The state takes its LOAD TABLE, which passes, and of it and the state after it something holds. -/
def loads (name : TableName) (s : State) (p : State → Bool) : Bool :=
  s.memoryOk && decide (s.headOrder .loadTable = some 0 ∧ refuseAtTaking .loadTable 0 s = none ∧
    s.cardTarget 0 = name.code) && (judgeLoad name s).toBool && (after .loadTable s p == some true)

/-- Pack 1 is at a DISABLED station, or at a PRESENT one with a request on its list; no notice finds a requester
that holds it. -/
theorem witness_LoadTableAdoptsOrRefuses_packs :
    let s := replacing .packs 0x0580 [4, 2, 10, 1] (withPack fun r => { r with requests := [⟨.doorUnit, .seal⟩] })
    (loads .packs s fun t => (t.packEntry 0).station == some 3 && t.stations[3].isOut) = true ∧
    (loads .packs (withStation 3 .present false s) fun t =>
      (t.packEntry 0).station == some 3 && !t.stations[3].isOut && (t.packEntry 1).station == none) = true ∧
    (∀ p, s.grantInFlight p = none ∧ s.relation p ≠ .holding) ∧
    (∀ r : Fin 4, s.ramps[r].state ≠ .moving) ∧ ∀ d : Fin 32, s.doors[d].state ≠ .waiting := by
  decide +kernel

/-- A ramp table of no ramps, over ramps that do not move. -/
theorem witness_LoadTableAdoptsOrRefuses_ramps :
    (loads .ramps (loading .ramps .unconfigured) fun t => t.ramps[0].state == .off) = true ∧
      (loading .ramps .unconfigured).ramps[0].state ≠ .moving := by decide +kernel

/-- Ramp 1 with a gate door, door 3, in zones without doors of their own. -/
def gateTables : Tables :=
  { deckTables with
    ramps := deckTables.ramps.set 0 (some { ramp with gates := [2] })
    doors := Tables.start.doors.set 2 (some ⟨.gate 0 0, 1, 2, 0, 2, 20, 20, 3, 3⟩)
    zones := Tables.start.zones }

/-- Ramp 1 lowers while its gate, door 3, is OPEN; a table that leaves the gate as it is finds its station
DISABLED. Zone 1 is SEALED. -/
theorem witness_LoadTableAdoptsOrRefuses_doors :
    let s := replacing .doors 0x0670 [3, 2, 3, 1, 1, 1, 2, 20, 20, 3, 3] fun s =>
      withRamp (fun r => { r with state := .moving, program := .lower, stage := 1 })
        (withZone (fun r => { r with state := .sealed })
          (withDoor 2 (fun r => { r with state := .opened }) { s with tables := gateTables }))
    (loads .doors s fun t => decide (t.rampEntry 0 = some { ramp with gates := [2] }) &&
      t.doors[2].state != .opened) = true ∧
    s.ramps[0].state = .moving ∧ s.ramps[0].program = .lower ∧ s.doors[2].state = .opened ∧
    s.doors[2].state.isMovingState = false ∧ s.part = .running ∧ s.zones[0].state.isSealed = true := by
  decide +kernel

/-- A PLAYING call is SENT in zone 1, which the new table leaves without a call station, and has zone 2 to come. -/
theorem witness_LoadTableAdoptsOrRefuses_zones :
    let s := replacing .zones 0x0590 [] fun s =>
      setChannel 0 { s.channels[0] with holder := some 0, progress := .sent }
        (withSlot (fun r => { r with state := .playing, zones := 3 }) s)
    (loads .zones s fun t => s.fallsSilent t.tables 0 0 &&
      (List.finRange 16).all fun i => !s.fallsSilent t.tables 1 i) = true ∧
    s.callsRest ∧ hasZone s.slots[0].zones 1 = true ∧ s.channels[1].progress = .idle ∧
    ∀ j : Fin 16, j ≠ 0 → s.slots[j].state ≠ .playing := by
  unfold State.callsRest; decide +kernel

/-- The new station table has no station: pack 1 fails, and the sensor point of zone 1 is lost. Zone 2 has none,
and zone 3 is SEALED. -/
theorem witness_LoadTableAdoptsOrRefuses_stations :
    let s := replacing .stations 0x0400 [] fun s =>
      { s with
        tables := { deckTables with
          zones := deckTables.zones.set 0 { zone with points := [(5, 0)] }, adopted := 0 }
        zones := s.zones.set 2 { s.zones[2] with state := .sealed } }
    (loads .stations s fun t => (t.packEntry 0).station == some 3 && t.stations[3].state == .disabled &&
      t.zones[0].alarm && (t.zoneEntry 0).confirmTime != 0 && !t.zones[1].alarm) = true ∧
    s.packs[0].state ≠ .failed ∧ s.ramps[0].state ≠ .moving ∧ s.doors[0].state.isMovingState = false ∧
    s.part = .running ∧ s.zones[2].state.isSealed = true ∧ s.zones[0].state = .clear ∧
    s.zones[0].alarm = false ∧ s.zones[1].state ≠ .sealed ∧ s.callsRest := by
  unfold State.callsRest; decide +kernel

def startable : State :=
  inPart .unconfigured (ordering .startDeck 0 { base with tables := { Tables.start with adopted := 31 } })

theorem witness_StartDeckRunsOrRefuses :
    startable.memoryOk = true ∧ startable.takes .startDeck 0 ∧ judgeStartDeck startable = none ∧
      startRewrites (.watch 7) = false ∧ startRewrites (.pack 1) = true ∧
      (inPart .running startable).takes .startDeck 0 ∧
      judgeStartDeck (inPart .running startable) ≠ none := by
  unfold State.takes; decide +kernel

/-- START DECK of the small deck: pack 1 is at a DISABLED station, or at a PRESENT one. -/
theorem witness_StartDeckRunsOrRefuses_records :
    ∀ s ∈ [(inPart .unconfigured (ordering .startDeck 0 base), true),
        (withStation 3 .present false (inPart .unconfigured (ordering .startDeck 0 base)), false)],
      s.1.memoryOk = true ∧ s.1.headOrder .startDeck = some 0 ∧ refuseAtTaking .startDeck 0 s.1 = none ∧
      judgeStartDeck s.1 = none ∧
      (∀ d : Fin 32, s.1.doors[d].state ≠ .waiting ∧ s.1.doors[d].deferred = false ∧
        s.1.doors[d].state.isMovingState = false) ∧ s.1.ramps[0].state ≠ .moving ∧
      (after .startDeck s.1 fun t => (t.packEntry 0).station == some 3 &&
        (t.stations[3].state == .disabled) == s.2 && t.stations[3].isOut == s.2) = some true := by
  decide +kernel

/-- CANCEL of board card 1 in a state. -/
def cancelling (st : CardState) (f : State → State) : State :=
  f (withCard 1 st (ordering .cancel 1 base))

theorem witness_CancelEndsItsTarget :
    (∀ st ∈ [CardState.posted, .free, .done, .refused],
      (cancelling st id).memoryOk = true ∧ (cancelling st id).headOrder .cancel = some 0 ∧
        refuseAtTaking .cancel 0 (cancelling st id) = none ∧
        (cancelling st id).cardTarget 0 = (1 : Fin 32).val ∧
        (cancelling st id).cardState (boardCard 1) = st) ∧
    (let s := cancelling .taken (withRamp fun r => { r with state := .moving, card := some 1 });
      s.takes .cancel 0 ∧ s.ownerOf (boardCard 1) = some (.ramp 0) ∧ s.rampEntry 0 = some ramp ∧
        s.ramps[0].state = .moving) ∧
    (let s := cancelling .taken (withDoor 1 fun r => { r with origin := .host, card := some 1 });
      s.takes .cancel 0 ∧ s.ownerOf (boardCard 1) = some (.door 1) ∧ s.doorEntry 1 = some hydraulic ∧
        s.doors[1].origin ≠ .zone) ∧
    (let s := cancelling .taken (withZone fun r => { r with card := some 1 });
      s.takes .cancel 0 ∧ s.ownerOf (boardCard 1) = some (.zone 0)) ∧
    (let s := cancelling .taken (withSlot fun r => { r with state := .queued, card := some 1 });
      s.takes .cancel 0 ∧ s.ownerOf (boardCard 1) = some (.call 0)) := by
  unfold State.takes; decide +kernel

/-- The target card is held by a door with a HOST demand, or by a call. -/
theorem witness_CancelEndsItsTarget_cards :
    (cancelling .taken (withDoor 1 fun r => { r with origin := .host, card := some 1 })).cardsSound ∧
      (cancelling .taken (withSlot fun r => { r with state := .playing, card := some 1 })).cardsSound ∧
      ∀ j : Fin 16, j ≠ 0 →
        (cancelling .taken (withSlot fun r => { r with state := .playing, card := some 1 })).slots[j].state ≠
          .queued :=
  ⟨cardsSound_of_heldByOne (o := .door 1) (by unfold heldByOne; decide +kernel),
    cardsSound_of_heldByOne (o := .call 0) (by unfold heldByOne; decide +kernel), by decide +kernel⟩

theorem witness_CancelEndsItsTarget_channel :
    let s := setChannel 0 { base.channels[0] with holder := some 0, progress := .playing }
      (cancelling .taken (withSlot fun r => { r with state := .playing, zones := 1, card := some 1 }))
    s.takes .cancel 0 ∧ s.ownerOf (boardCard 1) = some (.call 0) ∧ s.channels[0].holder = some 0 ∧
      (s.zoneEntry 0).callStation = some 2 ∧ s.isCallStation 2 0 := by
  unfold State.takes State.isCallStation; decide +kernel

theorem witness_StationOrders :
    (let s := ordering .stationEnable 1 base;
      s.memoryOk = true ∧ s.cardTarget 0 = deckNumber (0 : Fin 48) ∧ s.takes .stationEnable 0 ∧
        s.stationKind 0 ≠ .none ∧ s.stations[0].state = .disabled) ∧
    (let s := ordering .stationDisable 1 (withStation 0 .present false base);
      s.takes .stationDisable 0 ∧ s.stationKind 0 ≠ .none ∧ s.stations[0].state ≠ .disabled) ∧
    (let s := ordering .stationDisable 48 base;
      s.cardTarget 0 = deckNumber (47 : Fin 48) ∧ s.takes .stationDisable 0 ∧
        s.stationKind 47 = .none) := by
  unfold State.takes; decide +kernel

/-- Station 1 is disabled while its SET is in flight. -/
def disabling (m : LineMode) (tr : Option Transaction) : State :=
  withLine m tr (ordering .stationDisable 1 (withStation 0 .present false base))

theorem witness_StationOrders_removal (tr : Transaction) :
    (∀ m ∈ [LineMode.paused, .settling, .sending, .listening, .receiving],
      (disabling m (some tr)).line.transaction = some tr ∧ (disabling m (some tr)).line.mode = m) ∧
    (let s := disabling .idle none;
      s.memoryOk = true ∧ s.takes .stationDisable 0 ∧ s.cardTarget 0 = deckNumber (0 : Fin 48) ∧
        s.stationKind 0 ≠ .none ∧ s.stations[0].state ≠ .disabled ∧ s.line.setInFlight 0 = none) :=
  ⟨by simp [disabling, withLine, setLine], by unfold State.takes; decide +kernel⟩

/-! ### Witnesses: ramps -/

def rampIn (k : OrderKind) (st : RampState) : State :=
  ordering k 1 (withRamp (fun r => { r with state := st }) base)

theorem witness_RampProgramStarts :
    (rampIn .rampLower .stowed).takes .rampLower 0 ∧
      (rampIn .rampLower .stowed).cardTarget 0 = deckNumber (0 : Fin 4) ∧
      (rampIn .rampLower .stowed).rampEntry 0 = some ramp ∧
      judgeProgram 0 .lower (rampIn .rampLower .stowed) = none ∧ ramp.depth ≠ 0 ∧
      (rampIn .rampRaise .landed).takes .rampRaise 0 ∧
      judgeProgram 0 .raise (rampIn .rampRaise .landed) = none := by
  unfold State.takes; decide +kernel

theorem witness_RampHoldAndResume_hold :
    ∀ st ∈ [RampState.moving, .off, .fault],
      (rampIn .rampHold st).memoryOk = true ∧ (rampIn .rampHold st).takes .rampHold 0 ∧
        (rampIn .rampHold st).cardTarget 0 = deckNumber (0 : Fin 4) ∧
        (rampIn .rampHold st).rampEntry 0 = some ramp ∧ (rampIn .rampHold st).ramps[0].state = st ∧
        (rampIn .rampHold st).ramps[0].awaitingGrant = false ∧
        (rampIn .rampHold st).isRampStation ramp.station 0 := by
  unfold State.takes State.isRampStation; decide +kernel

/-- Ramp 4 is not fitted. -/
def unfitted (k : OrderKind) : State := ordering k 4 base

theorem witness_RampHoldAndResume_unfitted :
    (unfitted .rampHold).memoryOk = true ∧ (unfitted .rampHold).takes .rampHold 0 ∧
      (unfitted .rampHold).cardTarget 0 = deckNumber (3 : Fin 4) ∧
      (unfitted .rampHold).rampEntry 3 = none := by
  unfold State.takes; decide +kernel

theorem witness_RampHoldAndResume_resume :
    let s := ordering .rampResume 1
      (withRamp (fun r => { r with state := .held, program := .raise, programStage := 1 }) base)
    s.takes .rampResume 0 ∧ s.cardTarget 0 = deckNumber (0 : Fin 4) ∧ s.rampEntry 0 = some ramp ∧
      judgeResume 0 s = none := by
  unfold State.takes; decide +kernel

theorem witness_RampClearLeavesFault :
    (let s := withStation 0 .present false (rampIn .rampClear .fault);
      s.memoryOk = true ∧ s.takes .rampClear 0 ∧ s.cardTarget 0 = deckNumber (0 : Fin 4) ∧
        s.rampEntry 0 = some ramp ∧ s.ramps[0].state = .fault ∧
        s.stations[ramp.station].state = .present ∧
        s.stations[ramp.station].reportAwaited = false) ∧
    (let s := withStation 0 .present true (rampIn .rampClear .fault);
      s.takes .rampClear 0 ∧ s.ramps[0].state = .fault ∧
        s.stations[ramp.station].reportAwaited = true) ∧
    ((rampIn .rampClear .moving).takes .rampClear 0 ∧
      (rampIn .rampClear .moving).ramps[0].state ≠ .fault) := by
  unfold State.takes; decide +kernel

theorem witness_ProgramsAreAcceptedOnlyWhenSafe :
    judgeProgram 0 .lower (rampIn .rampLower .stowed) = none ∧
      judgeProgram 0 .lower (rampIn .rampLower .moving) ≠ none ∧
      (rampIn .rampLower .stowed).rampEntry 3 = none ∧
      (rampIn .rampLower .stowed).rampEntry 0 = some ramp := by decide +kernel

def doorIn (k : OrderKind) (d : Fin 32) (st : DoorState) : State :=
  ordering k (deckNumber d) (withDoor d (fun r => { r with state := st }) base)

theorem witness_OwnersRefusals :
    (let s := rampIn .rampLower .moving;
      s.memoryOk = true ∧ s.cardTarget 0 = deckNumber (0 : Fin 4) ∧ s.takes .rampLower 0 ∧
        judgeProgram 0 .lower s = some (.wrongState, 0)) ∧
    ((rampIn .rampRaise .fault).takes .rampRaise 0 ∧
      judgeProgram 0 .raise (rampIn .rampRaise .fault) ≠ none) ∧
    ((rampIn .rampResume .stowed).takes .rampResume 0 ∧
      judgeResume 0 (rampIn .rampResume .stowed) ≠ none) ∧
    ((doorIn .doorOpen 0 .failed).takes .doorOpen 0 ∧
      (doorIn .doorOpen 0 .failed).cardTarget 0 = deckNumber (0 : Fin 32) ∧
      judgeDoorOpen 0 (doorIn .doorOpen 0 .failed) ≠ none) ∧
    ((doorIn .doorClose 0 .failed).takes .doorClose 0 ∧
      judgeDoorClose 0 (doorIn .doorClose 0 .failed) ≠ none) ∧
    (doorIn .doorClear 0 .opened).takes .doorClear 0 ∧ (doorIn .doorClear 0 .opened).doorEntry 0 ≠ none ∧
      (doorIn .doorClear 0 .opened).doors[0].state ≠ .failed := by
  unfold State.takes; decide +kernel

/-- Ramp 4 and door 32 are not fitted. -/
theorem witness_OwnersRefusals_unfitted :
    ((unfitted .rampClear).takes .rampClear 0 ∧
      (unfitted .rampClear).cardTarget 0 = deckNumber (3 : Fin 4) ∧
      (unfitted .rampClear).rampEntry 3 = none) ∧
    (doorIn .doorClear 31 .failed).memoryOk = true ∧ (doorIn .doorClear 31 .failed).takes .doorClear 0 ∧
      (doorIn .doorClear 31 .failed).cardTarget 0 = deckNumber (31 : Fin 32) ∧
      (doorIn .doorClear 31 .failed).doorEntry 31 = none := by
  unfold State.takes; decide +kernel

theorem witness_DoorOrdersAreJudged : base.doorEntry 31 = none ∧ base.doorEntry 0 = some spring := by
  decide +kernel

/-! ### Witnesses: doors and zones -/

theorem witness_DoorOperationsBegin_close :
    ∀ d ∈ [(0 : Fin 32), 1],
      (doorIn .doorClose d .opened).takes .doorClose 0 ∧
        (doorIn .doorClose d .opened).cardTarget 0 = deckNumber d ∧
        (doorIn .doorClose d .opened).doorEntry d ≠ none ∧
        judgeDoorClose d (doorIn .doorClose d .opened) = none := by
  unfold State.takes; decide +kernel

theorem witness_DoorOperationsBegin_open :
    ∀ d ∈ [(0 : Fin 32), 1],
      (doorIn .doorOpen d .closed).takes .doorOpen 0 ∧
        (doorIn .doorOpen d .closed).cardTarget 0 = deckNumber d ∧
        (doorIn .doorOpen d .closed).doorEntry d ≠ none ∧
        judgeDoorOpen d (doorIn .doorOpen d .closed) = none := by
  unfold State.takes; decide +kernel

theorem witness_DoorClearTakesTheSwitches :
    (let s := doorIn .doorClear 0 .failed;
      s.memoryOk = true ∧ s.takes .doorClear 0 ∧ s.cardTarget 0 = deckNumber (0 : Fin 32) ∧
        s.doorEntry 0 = some spring ∧ s.doors[0].state = .failed ∧ s.doors[0].zoneClose = false) ∧
    (let s := withDoor 0 (fun r => { r with demand := .close, origin := .zone })
        (doorIn .doorClear 0 .failed);
      s.takes .doorClear 0 ∧ s.doors[0].zoneClose = true ∧ s.doors[0].switchState ≠ .closed ∧
        s.gateMustWait 0 = false ∧ spring.warnTime ≠ 0) := by
  unfold State.takes; decide +kernel

/-- A hydraulic door with warn time 0 closes again at once, or behind a stagger that runs. -/
theorem witness_DoorClearTakesTheSwitches_warnTime0 :
    ∀ stagger ∈ [none, some ⟨0, 9⟩],
      let s := withZone (fun r => { r with staggerTimer := stagger })
        (withDoor 1 (fun r => { r with demand := .close, origin := .zone }) (doorIn .doorClear 1 .failed));
      s.memoryOk = true ∧ s.takes .doorClear 0 ∧ s.cardTarget 0 = deckNumber (1 : Fin 32) ∧
        s.doorEntry 1 = some hydraulic ∧ s.doors[1].state = .failed ∧ s.doors[1].zoneClose = true ∧
        s.doors[1].switchState ≠ .closed ∧ s.gateMustWait 1 = false ∧ hydraulic.warnTime = 0 ∧
        s.zones[hydraulic.zone].staggerTimer = stagger ∧ s.zones[hydraulic.zone].startRequests = [] := by
  unfold State.takes; decide +kernel

/-- A gate door whose ramp is not stowed must wait. -/
theorem witness_DoorClearTakesTheSwitches_gate :
    let gate := ({ hydraulic with kind := .gate 0 0 } : DoorEntry)
    let s := withDoor 1 (fun r => { r with demand := .close, origin := .zone })
      { doorIn .doorClear 1 .failed with
        tables := { deckTables with doors := deckTables.doors.set 1 (some gate) } }
    s.takes .doorClear 0 ∧ s.doorEntry 1 = some gate ∧ s.doors[1].zoneClose = true ∧
      s.doors[1].switchState ≠ .closed ∧ s.gateMustWait 1 = true := by
  unfold State.takes; decide +kernel

def zoneIn (k : OrderKind) (st : ZoneState) (alarm : Bool) : State :=
  ordering k 1 (withZone (fun r => { r with state := st, alarm := alarm }) base)

theorem witness_ZoneAlertAndSeal_alert :
    (∀ st ∈ [ZoneState.clear, .alert, .sealing, .sealed, .impaired],
      (zoneIn .zoneAlert st false).memoryOk = true ∧ (zoneIn .zoneAlert st false).takes .zoneAlert 0 ∧
        (zoneIn .zoneAlert st false).cardTarget 0 = deckNumber (0 : Fin 8) ∧
        (zoneIn .zoneAlert st false).zones[0].state = st) ∧
    ((zoneIn .zoneAlert .clear false).zoneEntry 0).confirmTime ≠ 0 ∧
    (let s := ordering .zoneAlert 8 base;
      s.takes .zoneAlert 0 ∧ s.cardTarget 0 = deckNumber (7 : Fin 8) ∧ s.zones[7].state = .clear ∧
        (s.zoneEntry 7).confirmTime = 0) := by
  unfold State.takes; decide +kernel

/-- Zone 1 has a confirm time of 0 and seals by itself, its alarm present or not. -/
theorem witness_ZoneAlertAndSeal_atOnce :
    ∀ alarm ∈ [true, false],
      let s := { zoneIn .zoneAlert .clear alarm with
        tables := { deckTables with zones := deckTables.zones.set 0 { zone with confirmTime := 0 } } };
      s.memoryOk = true ∧ s.takes .zoneAlert 0 ∧ s.cardTarget 0 = deckNumber (0 : Fin 8) ∧
        s.zones[0].state = .clear ∧ (s.zoneEntry 0).confirmTime = 0 ∧ (s.zoneEntry 0).autoSeal = true ∧
        s.zones[0].alarm = alarm := by
  unfold State.takes; decide +kernel

/-- LOG 55: one notice takes zone 1's first point to 0 and its second to 1, and the stopped alert timer stays. -/
theorem test_two_points_of_one_notice_are_judged_once :
    let s := { withZone (fun r =>
        { r with state := .alert, alarm := true, points := r.points.set 0 ⟨true, false⟩ }) base with
      tables := { deckTables with zones := deckTables.zones.set 0 { zone with points := [(4, 0), (4, 1)] } } }
    let t := sensorsChange 4 0x2 0x3 s
    t.zones[0].points = #v[⟨false, false⟩, ⟨true, false⟩] ∧ t.zones[0].alarm = true ∧
      t.zones[0].alertTimer = none := by decide +kernel

theorem witness_ZoneAlertAndSeal_seal :
    ∀ st ∈ [ZoneState.clear, .alert, .sealing, .sealed, .impaired],
      (zoneIn .zoneSeal st true).memoryOk = true ∧ (zoneIn .zoneSeal st true).takes .zoneSeal 0 ∧
        (zoneIn .zoneSeal st true).cardTarget 0 = deckNumber (0 : Fin 8) ∧
        (zoneIn .zoneSeal st true).zones[0].state = st ∧
        (st = .clear ∨ st = .alert ∨ st.isSealed = true) := by
  unfold State.takes; decide +kernel

theorem witness_ZoneReleaseOrder :
    ((zoneIn .zoneRelease .alert true).takes .zoneRelease 0 ∧
      (zoneIn .zoneRelease .alert true).zones[0].alarm = true) ∧
    ∀ st ∈ [ZoneState.clear, .alert, .sealing, .sealed, .impaired],
      (zoneIn .zoneRelease st false).memoryOk = true ∧
        (zoneIn .zoneRelease st false).takes .zoneRelease 0 ∧
        (zoneIn .zoneRelease st false).cardTarget 0 = deckNumber (0 : Fin 8) ∧
        (zoneIn .zoneRelease st false).zones[0].alarm = false ∧
        (zoneIn .zoneRelease st false).zones[0].state = st := by
  unfold State.takes; decide +kernel

/-- Zone 1 is sealed with a card, and its two doors are in a state under its demand. -/
def sealedZone (st : DoorState) : State :=
  let under (r : DoorRecord) : DoorRecord := { r with state := st, demand := .close, origin := .zone }
  withCard 1 .taken (withDoor 0 under (withDoor 1 under
    (withZone (fun r => { r with card := some 1, doorStates := [(0, st), (1, st)] })
      (zoneIn .zoneRelease .sealing false))))

theorem witness_ZoneReleaseOrder_doors :
    ∀ st ∈ [DoorState.warning, .waiting, .obstructed, .closing, .closed, .failed, .unknown, .opened, .ajar],
      (sealedZone st).memoryOk = true ∧ (sealedZone st).takes .zoneRelease 0 ∧
        (sealedZone st).zones[0].alarm = false ∧ (sealedZone st).zones[0].state.isSealed = true ∧
        (sealedZone st).inFlight (.zoneDemand 0) = false ∧ (sealedZone st).doorEntry 0 = some spring ∧
        spring.zone = 0 ∧ (sealedZone st).doors[0].demand = .close ∧
        (sealedZone st).doors[0].origin = .zone ∧ (sealedZone st).doors[0].state = st := by
  unfold State.takes; decide +kernel

theorem witness_ZoneReleaseOrder_card :
    (sealedZone .closing).zones[0].card = some 1 ∧ (sealedZone .closing).cardsSound :=
  ⟨by decide +kernel, cardsSound_of_heldByOne (o := .zone 0) (by unfold heldByOne; decide +kernel)⟩

theorem witness_SealIsJudged :
    ∀ st ∈ [DoorState.closed, .closing, .failed],
      (sealedZone st).zones[0].state = .sealing ∧ (sealedZone st).zones[0].placementPending = false ∧
        (sealedZone st).zones[0].card = some 1 ∧ (sealedZone st).memoryOk = true ∧
        (sealedZone st).zones[0].doorStates.length = 2 ∧
        heldByOne (sealedZone st) (.zone 0) := by
  unfold heldByOne; decide +kernel

/-! ### Witnesses: calls and watches -/

def call (zone1 : ZoneState) : State :=
  withStation 2 .present false
    (ordered OrderKind.call.code 0 [1, 1, 0, 1, 0, 0, 0]
      { base with callUnit := { base.callUnit with zoneCopy := base.callUnit.zoneCopy.set 0 zone1 } })

def placed (s : State) : SlotRecord :=
  match callParameters s 0 with
  | .ok r => r
  | .error _ => SlotRecord.start

theorem witness_CallStartsInItsZones :
    ((call .sealing).memoryOk = true ∧ (call .sealing).takes .call 0 ∧
      (callParameters (call .sealing) 0).toBool = true ∧
      (call .sealing).allowedZones (placed (call .sealing)).priority (placed (call .sealing)).zones = 0) ∧
    ((call .clear).takes .call 0 ∧ (callParameters (call .clear) 0).toBool = true ∧
      (call .clear).allowedZones (placed (call .clear)).priority (placed (call .clear)).zones = 1 ∧
      (∀ i : Fin 16, (call .clear).slots[i].state = .free) ∧
      ∀ z, hasZone 1 z = true → (call .clear).channels[z].holder = none ∧
        ∃ i, ((call .clear).zoneEntry z).callStation = some i ∧
          (call .clear).lostOrDisabled i = false) ∧
    (call .clear).isCallStation 2 0 ∧ hasZone 1 0 = true := by
  unfold State.takes State.isCallStation; decide +kernel

/-- An EMERGENCY call for zone 1 finds the channel held by a ROUTINE call of slot 15 with a card. -/
def preempting (resume : Bool) : State :=
  let s := withStation 2 .present false (ordered OrderKind.call.code 0 [1, 1, 3, 1, 0, 0, 0] base)
  let s := setSlot 15
    { SlotRecord.start with
      state := .playing, zones := 3, priority := .routine, card := some 1, resumeOnCut := resume } s
  withCard 1 .taken (setChannel 0 { s.channels[0] with holder := some 15, progress := .playing } s)

theorem witness_CallStartsInItsZones_preempts :
    ∀ resume ∈ [true, false],
      (preempting resume).memoryOk = true ∧ (preempting resume).takes .call 0 ∧
        (callParameters (preempting resume) 0).toBool = true ∧
        (placed (preempting resume)).priority = .emergency ∧ (placed (preempting resume)).zones = 1 ∧
        (preempting resume).slots[0].state = .free ∧
        (∀ j : Fin 16, (preempting resume).slots[j].state ≠ .queued) ∧
        (∀ z : Fin 8, (preempting resume).callUnit.zoneCopy[z].isSealed = false) ∧
        ((preempting resume).zoneEntry 0).callStation = some 2 ∧
        (preempting resume).lostOrDisabled 2 = false ∧
        (preempting resume).channels[0].holder = some 15 ∧
        (preempting resume).slots[15].state ≠ .free ∧
        (preempting resume).slots[15].priority ≠ .emergency ∧
        hasZone (preempting resume).slots[15].zones 0 = true ∧
        (preempting resume).slots[15].resumeOnCut = resume := by
  unfold State.takes; decide +kernel

theorem witness_CallStartsInItsZones_cards (resume : Bool) : (preempting resume).cardsSound :=
  cardsSound_of_heldByOne (o := .call 15) (by cases resume <;> unfold heldByOne <;> decide +kernel)

/-- Every slot holds a call in a state; the last one is ROUTINE. -/
def fullSlots (st : SlotState) (s : State) : State :=
  { s with slots := Vector.ofFn fun i : Fin 16 =>
      { SlotRecord.start with
        state := st, clip := 9, priority := if i = 15 then .routine else .emergency
        arrival := BitVec.ofNat 16 i.val } }

theorem witness_CallsEnterByMergingOrASlot_merge :
    let s := setSlot 15 { SlotRecord.start with state := .queued, clip := 1, zones := 1 } (call .clear)
    s.mergesWith (placed s) 15 ∧ (∀ j : Fin 16, j ≠ 15 → s.slots[j].state ≠ .queued) ∧
      s.takes .call 0 ∧ (callParameters s 0).toBool = true ∧ (placed s).zones ≠ 0 := by
  unfold State.takes State.mergesWith; decide +kernel

theorem witness_CallsEnterByMergingOrASlot_busy :
    let s := fullSlots .playing (call .clear)
    (∀ j : Fin 16, ¬ s.mergesWith (placed s) j) ∧ (∀ j : Fin 16, s.slots[j].state ≠ .free) ∧
      (placed s).priority ≠ .emergency ∧ s.takes .call 0 := by
  unfold State.takes State.mergesWith; decide +kernel

theorem witness_CallsEnterByMergingOrASlot_displace :
    let s := fullSlots .queued (preempting false)
    (∀ j : Fin 16, ¬ s.mergesWith (placed s) j) ∧ (∀ j : Fin 16, s.slots[j].state ≠ .free) ∧
      (placed s).priority = .emergency ∧ s.memoryOk = true ∧ s.slots[15].state = .queued ∧
      s.slots[15].priority ≠ .emergency ∧ ∀ j : Fin 16, j ≠ 15 → s.slots[j].priority = .emergency := by
  unfold State.mergesWith; decide +kernel

/-- Slot 0 plays, and slot 15 holds the channel of zone 1. -/
def callWaits : State :=
  setChannel 0 { (call .clear).channels[0] with holder := some 15 }
    (setSlot 0 { SlotRecord.start with state := .playing } (call .clear))

theorem witness_CallsEnterByMergingOrASlot_queue :
    callWaits.memoryOk = true ∧ callWaits.slots[1].state = .free ∧
      (∀ j : Fin 16, j < 1 → callWaits.slots[j].state ≠ .free) ∧
      (∀ j : Fin 16, callWaits.slots[j].state ≠ .queued) ∧ (placed callWaits).priority ≠ .emergency ∧
      (callParameters callWaits 0).toBool = true ∧ hasZone (placed callWaits).zones 0 = true ∧
      callWaits.channels[0].holder ≠ none ∧ callWaits.takes .call 0 ∧
      callWaits.allowedZones (placed callWaits).priority (placed callWaits).zones =
        (placed callWaits).zones := by
  unfold State.takes; decide +kernel

theorem witness_CallsEnterByMergingOrASlot_cards : callWaits.cardsSound :=
  cardsSound_of_heldByOne (o := .ramp 0) (by unfold heldByOne; decide +kernel)

theorem witness_CallStopFreesItsSlot :
    (let s := ordering .callStop 0 (withSlot (fun r => { r with state := .playing }) base);
      s.memoryOk = true ∧ s.takes .callStop 0 ∧ s.cardTarget 0 = (0 : Fin 16).val ∧
        s.slots[0].state ≠ .free) ∧
    (let s := ordering .callStop 15 base;
      s.takes .callStop 0 ∧ s.cardTarget 0 = (15 : Fin 16).val ∧ s.slots[15].state = .free) := by
  unfold State.takes; decide +kernel

/-- A PLAYING call of slot 0 that holds the channel of zone 1 is stopped, and its card is sound. -/
theorem witness_CallStopFreesItsSlot_cards :
    let s := setChannel 0 { base.channels[0] with holder := some 0, progress := .playing }
      (withCard 1 .taken (ordering .callStop 0
        (withSlot (fun r => { r with state := .playing, zones := 1, card := some 1 }) base)))
    s.takes .callStop 0 ∧ s.slots[0].state ≠ .free ∧ s.slots[0].card = some 1 ∧ s.cardsSound ∧
      (∀ j : Fin 16, j ≠ 0 → s.slots[j].state ≠ .queued) ∧ s.channels[0].holder = some 0 ∧
      (s.zoneEntry 0).callStation = some 2 ∧ s.isCallStation 2 0 :=
  ⟨by unfold State.takes; decide +kernel, by decide +kernel, by decide +kernel,
    cardsSound_of_heldByOne (o := .call 0) (by unfold heldByOne; decide +kernel), by decide +kernel,
    by decide +kernel, by decide +kernel, by unfold State.isCallStation; decide +kernel⟩

def arming (k : Fin 8) (sequence : Nat) (s : State) : State :=
  ordered OrderKind.watchArm.code k [4, 1, 0, ZoneState.sealing.code, 0xFFFF, 0, 0, sequence] s

def armed (s : State) : WatchRecord :=
  match armFields s 0 with
  | .ok r => r
  | .error _ => WatchRecord.start

/-- Zone 1 is SEALING, on an idle line; channel 1 stores a SEQUENCE or not and is armed or not. -/
def armable (state : ZoneState) (sequence armed : Bool) : State :=
  withWatch 1 (fun r => { r with sequence := sequence, armed := armed })
    (withZone (fun r => { r with state := state }) (idleLine base))

theorem witness_WatchArmAndDisarm :
    (∀ st ∈ [ZoneState.clear, .sealing], ∀ pair ∈ [true, false],
      let s := arming 0 0 (armable st pair pair);
      s.memoryOk = true ∧ s.lineRests ∧ s.cardTarget 0 = (0 : Fin 8).val ∧ s.takes .watchArm 0 ∧
        (armFields s 0).toBool = true ∧ (armed s).sequence = false ∧ s.pairArmed 0 = pair ∧
        s.matchesNow (armed s) = decide (st = .sealing)) := by
  unfold State.takes State.lineRests; decide +kernel

theorem witness_WatchArmAndDisarm_sequence :
    (∀ already ∈ [true, false],
      let s := arming 1 1 (armable .clear true already);
      s.lineRests ∧ s.cardTarget 0 = (1 : Fin 8).val ∧ s.takes .watchArm 0 ∧
        (armFields s 0).toBool = true ∧ (armed s).sequence = true ∧ s.watch[1].inSequence = already) ∧
    (∀ stored ∈ [true, false],
      let s := arming 0 1 (armable .sealing stored false);
      s.lineRests ∧ s.takes .watchArm 0 ∧ (armFields s 0).toBool = true ∧ (armed s).sequence = true ∧
        s.watch[1].sequence = stored ∧ s.matchesNow (armed s) = true) := by
  unfold State.takes State.lineRests; decide +kernel

theorem witness_WatchArmAndDisarm_disarm :
    (let s := ordering .watchDisarm 1 (armable .clear true true);
      s.memoryOk = true ∧ s.lineRests ∧ s.takes .watchDisarm 0 ∧ s.cardTarget 0 = (1 : Fin 8).val ∧
        s.pairArmed 1 = true) := by
  unfold State.takes State.lineRests; decide +kernel

/-- The action card of an INDEPENDENT arm that matches at once is FREE, or POSTED already. -/
theorem witness_WatchArmAndDisarm_posts :
    ∀ st ∈ [CardState.free, .posted],
      let s := withCard 39 st (ordered OrderKind.watchArm.code 7 [4, 1, 0, 0x10, 0xFFFF, 1, 7, 0]
        (armable .sealing false false));
      s.lineRests ∧ s.takes .watchArm 0 ∧ (armFields s 0).toBool = true ∧ s.matchesNow (armed s) = true ∧
        s.pairArmed 7 = false ∧ (armed s).post = true ∧ (armed s).actionCard = BitVec.ofNat 16 7 ∧
        s.actionInUse (armed s).actionCard = decide (st = .posted) := by
  unfold State.takes State.lineRests; decide +kernel

theorem witness_WatchClearClearsTheFlags :
    let s := ordering .watchClear 7 (idleLine base)
    s.memoryOk = true ∧ s.lineRests ∧ s.takes .watchClear 0 ∧ s.cardTarget 0 = (7 : Fin 8).val := by
  unfold State.takes State.lineRests; decide +kernel

theorem witness_WatchTestCompares :
    WatchRecord.start.test = .equal ∧ WatchRecord.start.mask = 0 ∧
      ({ WatchRecord.start with test := .atLeast } : WatchRecord).test = .atLeast ∧
      ({ WatchRecord.start with test := .atMost } : WatchRecord).test = .atMost := by decide

/-- Watch channels 6 and 7 watch the state of ramp 1. -/
def watching (sequence : Bool) (s : State) : State :=
  let watch (r : WatchRecord) : WatchRecord :=
    { r with armed := true, subject := .rampState, number := 1, sequence := sequence }
  withWatch 7 watch (withWatch 6 watch s)

theorem witness_RewritesAreEvaluated :
    ((watching true base).watch[7].record? = some (.ramp 0) ∧
      (6 : Fin 8).val = (7 : Fin 8).val - (7 : Fin 8).val % 2) ∧
    (let s := watching false (rampIn .rampLower .stowed);
      s.watch[7].armed = true ∧ s.pairArmed 7 = false ∧ s.watch[7].record? = some (.ramp 0) ∧
        after .rampLower s (·.changeCount (.ramp 0)) = some 2 ∧
        after .frameSent s (·.changeCount (.ramp 0)) = some 0) := by
  decide +kernel

/-! ### Witnesses: the deck stop and the line -/

def pin (asserted level : Bool) (s : State) : State :=
  { s with pins := { s.pins with stopPin := asserted, stopLevel := level } }

theorem witness_DeckStopStopsTheDeck_pin :
    (pin false true base).pins.stopPin ≠ true ∧ (pin true true base).pins.stopPin = true ∧
      (pin false true base).lineRests ∧ (pin false true base).pins.stopPin = false ∧
      (pin false true base).pins.stopLevel = true ∧ (pin true false base).lineRests ∧
      (pin true false base).pins.stopPin = true ∧ (pin true false base).pins.stopLevel = false := by
  unfold State.lineRests; decide +kernel

theorem witness_DeckStopStopsTheDeck :
    let s := pin true false
      (withDoor 0 (fun r => { r with state := .opening, demand := .openDoor, origin := .host })
        (withRamp (fun r => { r with state := .moving }) base))
    s.pins.stopPin = true ∧ s.pins.stopLevel = false ∧ s.rampEntry 0 = some ramp ∧
      s.ramps[0].state = .moving ∧ s.ramps[3].state ≠ .moving ∧ s.doorEntry 0 = some spring ∧
      s.doors[0].demand = .openDoor ∧ s.doors[0].origin ≠ .zone := by decide +kernel

def poll (i : Fin 48) : Transaction :=
  ⟨i, false, 1, 0, 0, frameBytes (stationAddress i) kindPoll [], false, false, false, .answered⟩
def setting (i : Fin 48) (attempts : Nat) : Transaction :=
  ⟨i, true, attempts, 7, 1, frameBytes (stationAddress i) kindSet [7, 1], false, false, false, .corrupt⟩
def waiting (e : PendingSet) (s : State) : State := setLine { s.line with pending := [e] } s

theorem witness_LineSendsPausesAndSettles :
    (withLine .sending none base).line.mode = .sending ∧
      (withLine .paused none base).line.mode = .paused ∧
      (let s := waiting ⟨0, 1, false⟩ (withLine .settling (some (setting 0 1)) base);
        s.line.mode = .settling ∧ s.line.transaction = some (setting 0 1) ∧
          s.line.entry? (setting 0 1).station = some ⟨0, 1, false⟩) ∧
      (withLine .settling none base).line.mode = .settling ∧
      (withLine .settling none base).line.transaction = none := by decide +kernel

theorem witness_LineChoosesItsTransaction :
    (waiting ⟨0, 1, true⟩ (idleLine base)).line.mode = .idle ∧
      (waiting ⟨0, 1, true⟩ (idleLine base)).line.pending.find? (·.urgent) = some ⟨0, 1, true⟩ ∧
      (let s := setLine { (waiting ⟨0, 1, false⟩ (idleLine base)).line with lastWasPoll := true } base;
        s.line.pending.find? (·.urgent) = none ∧ s.line.lastWasPoll = true ∧
          s.line.pending.head? = some ⟨0, 1, false⟩) ∧
      (idleLine base).line.mode = .idle ∧ (idleLine base).line.chooseEntry = none ∧
      (idleLine base).rosterVisit = none ∧ (idleLine base).fastVisit = none := by decide +kernel

/-- Station 4 is the roster's next, at its wrap, and the moving ramp's station 1 the fast one. -/
theorem witness_LineChoosesItsTransaction_poll :
    ∀ side ∈ [Side.roster, .fast],
      let s := withStation 0 .present false (withStation 3 .lost false
        (withRamp (fun r => { r with state := .moving }) (idleLine base)));
      let s := setLine { s.line with rosterPos := 1, cycle := 3, nextSide := side } s;
      s.line.mode = .idle ∧ s.line.chooseEntry = none ∧ s.isFast 0 ∧
        s.fastVisit = some 0 ∧ s.rosterVisit = some (0, 1, 0) ∧ s.line.nextSide = side := by
  unfold State.isFast; decide +kernel

def listening (t : Transaction) : State := withLine .listening (some t) base
def report : Reception := cleanAnswer (frameBytes (stationAddress 0) kindReport [0, 1])
def ack : Reception := cleanAnswer (frameBytes (stationAddress 0) kindAck [7])
def wait : Reception := cleanAnswer (frameBytes (stationAddress 0) kindWait [])
def nak : Reception := cleanAnswer (frameBytes (stationAddress 0) kindNak [])

theorem witness_AnswersSettleTheLine :
    (listening (poll 0)).line.mode = .listening ∧
      (listening (poll 0)).line.transaction = some (poll 0) ∧ report.beginsInWindow = true ∧
      (poll 0).discard = false ∧ (poll 0).isSet = false ∧
      judgeAnswer ((listening (poll 0)).stationKind 0) (poll 0) (receiveFrame report) =
        .answered [0, 1] ∧
      (setting 0 2).isSet = true ∧ (setting 0 2).attempts < 3 ∧ (setting 0 2).removal = false ∧
      judgeAnswer ((listening (setting 0 2)).stationKind 0) (setting 0 2) (receiveFrame ack) =
        .answered [7] ∧
      judgeAnswer ((listening (setting 0 2)).stationKind 0) (setting 0 2) (receiveFrame report) =
        .corrupt ∧
      judgeAnswer ((listening (setting 0 2)).stationKind 0) (setting 0 2) (receiveFrame wait) =
        .waited ∧ (setting 0 2).waited = false := by decide +kernel

theorem witness_AnswersSettleTheLine_failed :
    judgeAnswer ((listening (setting 0 2)).stationKind 0) (setting 0 2) (receiveFrame nak) = .naked ∧
      (let t := { setting 0 2 with waited := true };
        (listening t).line.transaction = some t ∧ t.waited = true ∧ t.isSet = true ∧ t.attempts < 3 ∧
          t.removal = false ∧ judgeAnswer ((listening t).stationKind 0) t (receiveFrame wait) = .waited) := by
  decide +kernel

/-- Station 1 is owed a SET, with a mark or without, and has an entry on the list. -/
def owing (e : PendingSet) (urgent : Bool) (tr : Transaction) : State :=
  let s := waiting e (listening tr)
  composed (setLine { s.line with owed := s.line.owed.set 0 (some urgent) } s)

theorem witness_AnswersSettleTheLine_owed :
    ∀ urgent ∈ [true, false],
      (∀ e ∈ [(⟨0, 1, false⟩ : PendingSet), ⟨0, 2, true⟩],
        (owing e urgent (setting 0 2)).line.entry? 0 = some e) ∧
      (setting 0 2).image = 1 ∧ (owing ⟨0, 1, false⟩ urgent (poll 0)).line.owed[(0 : Fin 48)] = some urgent ∧
      ((owing ⟨0, 1, false⟩ urgent (poll 0)).stationKind 0).takesSets = true := by decide +kernel

theorem witness_AnswersSettleTheLine_images : (owing ⟨0, 2, true⟩ true (setting 0 2)).imagesFollow :=
  composed_imagesFollow _

theorem witness_ReportsAndMissesAtTheStation_report :
    (listening (poll 0)).line.mode = .listening ∧
      (listening (poll 0)).line.transaction = some (poll 0) ∧ report.beginsInWindow = true ∧
      (poll 0).discard = false ∧ (poll 0).isSet = false ∧
      judgeAnswer ((listening (poll 0)).stationKind (poll 0).station) (poll 0) (receiveFrame report) =
        .answered [0, 1] := by decide +kernel

theorem witness_ReportsAndMissesAtTheStation_miss :
    (listening (poll 47)).line.mode = .listening ∧
      (listening (poll 47)).line.transaction = some (poll 47) ∧ (poll 47).discard = false ∧
      (poll 47).isSet = false ∧ (listening (setting 0 2)).line.transaction = some (setting 0 2) ∧
      (setting 0 2).isSet = true ∧ (setting 0 2).attempts < 3 ∧ (setting 0 2).removal = false := by
  decide +kernel

theorem witness_ReportsAndMissesAtTheStation_acknowledgement :
    (∀ st ∈ [StationState.disabled, .absent, .present],
      (withStation 0 st false (listening (setting 0 2))).stations[0].state = st) ∧
    (let s := listening (setting 0 2);
      let t := setStation 0 { s.stations[0] with state := .lost, rejoinPending := true } s;
      t.line.mode = .listening ∧ t.line.transaction = some (setting 0 2) ∧
        t.stations[0].rejoinPending = true) ∧
    ack.beginsInWindow = true ∧ (setting 0 2).discard = false ∧ (setting 0 2).isSet = true ∧
    judgeAnswer ((listening (setting 0 2)).stationKind 0) (setting 0 2) (receiveFrame ack) =
      .answered [7] := by decide +kernel

/-- What each owner waits for: a pump that starts, a park, parked for itself or for another, and a PLAY. -/
def delivering : State :=
  setChannel 0 { base.channels[0] with holder := some 0, progress := .sent, token := 0 }
    (withSlot (fun r => { r with state := .playing, zones := 1 })
      (withPack (fun r => { r with state := .starting })
        (setPack 1 { base.packs[1] with state := .ready, holder := some (.ramp 0), parked := true } base)))

theorem witness_ReportsAndMissesAtTheStation_delivery :
    (delivering.isPackStation 3 0 ∧ delivering.packs[0].state = .starting ∧
      (setting 3 1).image.getLsbD 0 = true) ∧
    (delivering.isRampStation 0 0 ∧ imageByte { setting 0 1 with image := 0 }.image 0 = 0 ∧
      delivering.packs[1].holder = some (.ramp 0) ∧ delivering.packs[1].parked = true ∧
      delivering.packs[1].state = .ready ∧ delivering.packs[1].requests = [] ∧
      designate [⟨.ramp 3, .motion⟩] = some (.ramp 3)) ∧
    (delivering.isCallStation 2 0 ∧ delivering.channels[0].holder = some 0 ∧
      delivering.slots[0].state = .playing ∧ delivering.channels[0].progress = .sent ∧
      imageByte (setting 2 1).image 0 = 1 ∧
      imageByte (setting 2 1).image 3 = delivering.channels[0].token) := by
  unfold State.isPackStation State.isRampStation State.isCallStation; decide +kernel


/-- The last attempt of a SET fails in each of the ways, in its third attempt or in a poll's only one. -/
theorem witness_ReportsAndMissesAtTheStation_fails :
    (listening (poll 0)).attemptFails (poll 0) .noAnswer .noAnswer 0 ∧
      (listening (setting 0 3)).attemptFails (setting 0 3) (.answerReceived nak 5) .naked 5 ∧
      (listening (setting 0 3)).attemptFails (setting 0 3) (.answerReceived report 5) .corrupt 5 ∧
      (listening { setting 0 3 with waited := true }).attemptFails { setting 0 3 with waited := true }
        (.answerReceived wait 5) .noAnswer 5 :=
  ⟨⟨rfl, .inl ⟨rfl, rfl, rfl, rfl⟩⟩,
    ⟨rfl, .inr ⟨_, rfl, .inl rfl, by decide +kernel, _, rfl, .inl ⟨by decide +kernel, rfl⟩⟩⟩,
    ⟨rfl, .inr ⟨_, rfl, .inl rfl, by decide +kernel, _, rfl, .inr (.inl ⟨by decide +kernel, rfl⟩)⟩⟩,
    ⟨rfl, .inr ⟨_, rfl, .inl rfl, by decide +kernel, _, rfl,
      .inr (.inr ⟨by decide +kernel, .inl rfl, rfl⟩)⟩⟩⟩

/-- Station 1's entry when its SET fails at last: its third miss, or another. -/
theorem witness_ReportsAndMissesAtTheStation_owed :
    (∀ misses ∈ [0, 2], ∀ e ∈ [(⟨0, 1, false⟩ : PendingSet), ⟨0, 2, true⟩],
      let s := owing e false (setting 0 3);
      let t := setStation 0 { s.stations[0] with state := .present, missCount := misses } s;
      t.rejoinsLost ∧ t.line.entry? 0 = some e ∧ t.line.transaction = some (setting 0 3) ∧
        t.stations[0].removedByMiss = decide (misses = 2)) ∧
    (setting 0 3).discard = false ∧ 3 ≤ (setting 0 3).attempts ∧ (setting 0 3).removal = false := by
  unfold State.rejoinsLost; decide +kernel

theorem witness_HandOverForDisabledIsDiscarded :
    base.stations[(poll 0).station].state = .disabled := by decide +kernel

theorem witness_FramesAreReceivedAsSent :
    (List.replicate 16 (0xFF : Byte)).length ≤ 16 ∧ (poll 0).isSet = false ∧
      [(0 : Byte), 1].length = StationKind.ramp.reportLength ∧ (setting 0 1).isSet = true ∧
      3 ≤ [(5 : Byte), 1, 0].length ∧ (0 : Byte) ≠ crc [5, 1, 0] ∧ (0x80 : Byte) ≠ 0 ∧
      (withLine .sending (some (poll 0)) base).line.mode = .sending ∧ base.line.mode ≠ .sending := by
  decide +kernel

/-! ### Witnesses: timers and notices -/

def running (f : RampRecord → RampRecord) : State :=
  withRamp (fun r => f { r with state := .moving, program := .lower, stage := 1, programStage := 1 }) base
def last : StageRecord := { stage with next := 0 }

theorem witness_StagesEndByTheirTimers :
    (let s := running fun r => { r with durationTimer := some ⟨0, 1500⟩ };
      s.rampEntry 0 = some ramp ∧ s.runningStage 0 = some stage ∧
        s.ramps[0].durationTimer = some ⟨0, 1500⟩ ∧ (clockReaches 0 1500 s).clock = 1500 ∧
        stage.next ≠ 0 ∧ ramp.stage? stage.next = some stage ∧
        stage.metAtEntry s.ramps[0] = false) ∧
    (let s := running fun r => { r with pace := { r.pace with leadTimer := some ⟨0, 9⟩ } };
      s.runningStage 0 = some stage ∧ s.ramps[0].pace.leadTimer = some ⟨0, 9⟩) ∧
    (let e := ({ ramp with stages := Vector.replicate 12 last } : RampEntry);
      let s := { running fun r => { r with durationTimer := some ⟨0, 1500⟩ } with
        tables := { deckTables with ramps := deckTables.ramps.set 0 (some e) } };
      s.rampEntry 0 = some e ∧ s.runningStage 0 = some last ∧ last.next = 0 ∧
        s.isRampStation e.station 0) := by
  unfold State.isRampStation; decide +kernel

/-- A stage without a reseed interval, and one with it. -/
theorem witness_StagesEndByTheirTimers_entry :
    stage.reseed = 0 ∧ ({ stage with reseed := 100 } : StageRecord).reseed ≠ 0 ∧ ramp.depth ≠ 0 := by decide

/-- The card of a program that ends is held by its ramp alone. -/
def ending (p : Program) : State :=
  { withCard 0 .taken
      (running fun r => { r with program := p, card := some 0, durationTimer := some ⟨0, 1500⟩ }) with
    tables := { deckTables with
      ramps := deckTables.ramps.set 0 (some { ramp with stages := Vector.replicate 12 last }) } }

theorem witness_StagesEndByTheirTimers_card (p : Program) :
    (ending p).memoryOk = true ∧ (ending p).cardsSound ∧ (ending p).ramps[0].card = some 0 ∧
      (ending p).runningStage 0 = some last ∧ (ending p).ramps[0].program = p :=
  ⟨by cases p <;> decide +kernel,
    cardsSound_of_heldByOne (o := .ramp 0) (by cases p <;> unfold heldByOne <;> decide +kernel),
    by cases p <;> decide +kernel⟩

/-- Where a ramp's new valves and a pack's new pump run are requested. -/
theorem witness_StagesEndByTheirTimers_sent :
    (let s := withStation 0 .present false (running id);
      s.isRampStation ramp.station 0 ∧ s.sendsTo 0 ∧ (s.stations[0].image ≠ 1)) ∧
    (let s := withStation 3 .absent true (running id);
      s.isPackStation 3 0 ∧ (s.packEntry 0).station = some 3 ∧ s.sendsTo 3) ∧
    ∀ e : PendingSet, requestTaken [] e [e] := by
  refine ⟨?_, ?_, fun e => ⟨fun _ => rfl, fun a x b h => ?_⟩⟩
  · unfold State.isRampStation State.sendsTo; decide +kernel
  · unfold State.isPackStation State.sendsTo; decide +kernel
  · exact absurd h (by simp)

/-- Station 1 answers a poll with a count and no switch, its ramp 1 as an entry and a record say. -/
def counting (e : RampEntry) (f : RampRecord → RampRecord) : State :=
  let s := withStation 0 .present false (withRamp f (listening (poll 0)))
  { s with tables := { deckTables with ramps := deckTables.ramps.set 0 (some e) } }
def counted (count : Byte) : Reception := cleanAnswer (frameBytes (stationAddress 0) kindReport [count, 0])

def countingIn (st : RampState) : State := counting ramp fun r => { r with state := st }

theorem witness_RampReportsMoveThePosition_rest :
    (∀ st ∈ [RampState.stowed, .landed, .stopped, .held, .fault, .off, .moving],
      (countingIn st).memoryOk = true ∧ (countingIn st).ramps[0].state = st ∧
        (countingIn st).ramps[0].stage = 0 ∧
        (countingIn st).bringsCount (poll 0) (counted 255) [255, 0] 0 ramp) := by
  unfold State.bringsCount; decide +kernel

/-- The program lowers in its first stage at mark 5. -/
def countingAt5 : State :=
  counting ramp fun r =>
    { r with state := .moving, program := .lower, stage := 1, programStage := 1, position := 5 }

theorem witness_RampReportsMoveThePosition_stage :
    (∀ count ∈ [(3 : Byte), 4, 5, 6],
      countingAt5.bringsCount (poll 0) (counted count) [count, 0] 0 ramp ∧
        countingAt5.ramps[0].advance count.toNat = (count.toNat : Int) - 5) ∧
    countingAt5.memoryOk = true ∧ countingAt5.runningStage 0 = some stage ∧
      stage.endCondition = .time 150 := by
  unfold State.bringsCount; decide +kernel

/-- A ramp whose first stage runs to mark 5 with some lead; the next stage is timed, or there is none. -/
def toMark (lead next : Nat) : RampEntry :=
  { ramp with
    lead := lead
    stages := ramp.stages.set 0 { stage with endCondition := .mark 5, next := next } }

/-- Ramp 1 comes to a mark of that stage; its pace is 400 ms, and no interval is entered. -/
def atMark (e : RampEntry) (position : Nat) : State :=
  counting e fun r =>
    { r with
      state := .moving, program := .lower, stage := 1, programStage := 1, position := position
      pace := { r.pace with history := [400], p := some 400, firstMarkPending := true } }

theorem witness_MarkArrivalsAndLead :
    (∀ pending ∈ [true, false],
      let pace : PaceRecord :=
        { (atMark ramp 4).ramps[0].pace with firstMarkPending := pending, markTimer := some 0 };
      (pace.firstMarkPending = true ∨ pace.blankTimer = none) ∧ pace.history.length = 1) ∧
    (∀ lead ∈ [0, 32], ∀ next ∈ [0, 2], ∀ count ∈ [(3 : Byte), 4, 5],
      let e := toMark lead next
      let s := atMark e 2
      let after : RampRecord := s.ramps[0].counted e count 0
      s.bringsCount (poll 0) (counted count) [count, 0] 0 e ∧
        s.runningStage 0 = some { stage with endCondition := .mark 5, next := next } ∧
        s.ramps[0].program = .lower ∧ 1 ≤ s.ramps[0].advance after.position ∧
        (after.pace.markArrival e 1 (s.clock + 5)).p = some 400 ∧
        (400 * lead / 128 = 0 ↔ lead = 0) ∧ after.leadStarts 5 = decide (count = 4) ∧
        after.isShort 5 = decide (count ≠ 5) ∧
        (next = 2 → e.stage? next = some stage ∧ stage.metAtEntry after = false)) := by
  unfold State.bringsCount; decide +kernel

/-- Ramp 1 runs a SWITCH stage under HALT or WARN, with some warnings given. -/
def halting (warn : Bool) : RampEntry :=
  { ramp with warn := warn, stages := Vector.replicate 12 { stage with endCondition := .switch true } }

def paced (warn : Bool) (warnings : Nat) : State :=
  { running fun r =>
      { r with
        limitTimer := some ⟨0, 3000⟩
        pace := { r.pace with
          stallLimit := some 900, markTimer := some 0, blankTimer := some ⟨0, 9⟩
          warningCount := warnings } } with
    tables := { deckTables with ramps := deckTables.ramps.set 0 (some (halting warn)) } }

theorem witness_StageLimitStallAndBlank :
    ∀ warn ∈ [true, false], ∀ n ∈ [0, 1],
      (paced warn n).memoryOk = true ∧ (paced warn n).rampEntry 0 = some (halting warn) ∧
        (halting warn).warn = warn ∧ (paced warn n).ramps[0].state = .moving ∧
        (paced warn n).ramps[0].limitTimer = some ⟨0, 3000⟩ ∧
        (paced warn n).stallWatch 0 = some (0, 900) ∧
        (paced warn n).ramps[0].pace.warningCount = n ∧
        (paced warn n).ramps[0].pace.blankTimer = some ⟨0, 9⟩ ∧
        (paced warn n).ramps[0].awaitingGrant = false ∧
        (paced warn n).isRampStation (halting warn).station 0 := by
  unfold State.isRampStation; decide +kernel

def packIn (st : PackState) : State :=
  withPack (fun r =>
    { r with
      state := st, startTimer := some ⟨0, 9⟩, requests := [⟨.ramp 0, .motion⟩]
      parkHoldTimer := some ⟨0, 9⟩ })
    (running id)

theorem witness_PackTimers :
    ((packIn .starting).packs[0].state = .starting ∧
      (packIn .starting).packs[0].startTimer = some ⟨0, 9⟩ ∧ (packIn .starting).grantInFlight 0 = none ∧
      Requester.ramp 0 ∈ (packIn .starting).packs[0].requests.map (·.requester) ∧
      (packIn .starting).ramps[0].state = .moving) ∧
    ((packIn .failed).packs[0].state = .failed ∧ (packIn .failed).packs[0].startTimer = some ⟨0, 9⟩ ∧
      ((packIn .failed).packEntry 0).station = some 3) ∧
    (packIn .idle).packs[0].parkHoldTimer = some ⟨0, 9⟩ ∧ (packIn .idle).isPackStation 3 0 ∧
    (let s := withStation 3 .present false (packIn .failed);
      s.reported 3 = true ∧ s.packs[0].packFault = false ∧ s.packs[0].pressureReady = false ∧
        s.packs[0].requests ≠ []) := by
  unfold State.isPackStation; decide +kernel

/-- A grant is in flight to ramp 1, which is HELD, while the door unit waits for the pack. -/
def grantToHeld : State :=
  handing (.grant 0 (.ramp 0)) (setRelation 0 .requesting
    (withPack (fun r =>
        { r with state := .ready, holder := some (.ramp 0), requests := [⟨.doorUnit, .motion⟩] })
      (withDoor 1 (fun r => { r with state := .waiting, demand := .close, origin := .host })
        (withRamp (fun r => { r with state := .held }) base))))

theorem witness_PackTimers_failure :
    grantToHeld.packs[0].state ≠ .failed ∧ ⟨.doorUnit, .motion⟩ ∈ grantToHeld.packs[0].requests ∧
      grantToHeld.inFlight (.withdrawal 0 .doorUnit) = false ∧
      grantToHeld.inFlight (.grant 0 .doorUnit) = false ∧ grantToHeld.relation 0 = .requesting ∧
      grantToHeld.handovers = [.grant 0 (.ramp 0)] := by decide +kernel

/-- R55: the entry stays on the list, and no grant is left in flight. -/
theorem test_failure_keeps_the_list_over_a_grant_in_flight :
    (failPack 0 .fault grantToHeld).packs[0].requests = [⟨.doorUnit, .motion⟩] ∧
      (failPack 0 .fault grantToHeld).packs[0].holder = none ∧
      (failPack 0 .fault grantToHeld).relation 0 = .requesting ∧
      (failPack 0 .fault grantToHeld).handovers = [] := by decide +kernel

/-- R165, R172: channel 0 trips at the rewrite of the pack, and its A-seen is cleared at that of the ramp. -/
theorem test_two_events_rewrite_a_channel_twice :
    after (.pumpStartLimitExpiry 0)
      (withWatch 1 (fun r =>
          { r with
            armed := true, subject := .rampState, number := 1, mask := 0xFFFF, sequence := true
            reference := BitVec.ofNat 16 RampState.fault.code })
        (withWatch 0 (fun r =>
            { r with
              armed := true, subject := .packState, number := 1, mask := 0xFFFF, sequence := true
              reference := BitVec.ofNat 16 PackState.failed.code })
          (packIn .starting)))
      (fun t => (t.changeCount (.watch 0), t.watch[0].matched, t.watch[0].aSeen, t.watch[1].matched)) =
      some (4, true, false, true) := by decide +kernel

/-- R48: ramp 1 still holds pack 1 parked when the ramp table has come to name pack 2 for it. -/
theorem test_a_park_reaches_the_deck_on_the_pack_it_is_held_on :
    let s := { withPack (fun r => { r with state := .ready, holder := some (.ramp 0), parked := true }) base with
      tables := { deckTables with ramps := deckTables.ramps.set 0 (some { ramp with pack := 1 }) } }
    (rampsDelivery 0 0 s).packs[0].parkOnDeck = true := by decide +kernel

theorem witness_RequestsAreListedOrGranted :
    (let e : PackRequest := ⟨.doorUnit, .seal⟩;
      e ∈ [⟨.ramp 0, .motion⟩, e] ∧ e.cls = .seal) ∧
    (∀ e ∈ [(⟨.ramp 0, .motion⟩ : PackRequest)], e.cls = .motion) ∧
    (packIn .ready).packs[0].state = .ready ∧ (packIn .ready).packs[0].holder = none ∧
      (packIn .ready).packs[0].requests ≠ [] := by decide +kernel

theorem witness_NoticesAreTaken :
    (let s := handing (.grant 0 (.ramp 0)) (running fun r => { r with stage := 0, awaitingGrant := true });
      s.inFlight (.grant 0 (.ramp 0)) = true ∧ s.rampEntry 0 = some ramp ∧ s.ramps[0].state = .moving ∧
        s.ramps[0].awaitingGrant = true ∧ ramp.stage? s.ramps[0].programStage = some stage ∧
        stage.metAtEntry s.ramps[0] = false ∧ s.isRampStation ramp.station 0) ∧
    (let s := handing (.grant 1 (.ramp 3)) base;
      s.inFlight (.grant 1 (.ramp 3)) = true ∧ s.ramps[3].state ≠ .moving) ∧
    (let s := handing (.preemption 0 0) (running id);
      s.inFlight (.preemption 0 0) = true ∧ s.grantInFlight 0 = none ∧ s.rampEntry 0 = some ramp ∧
        s.ramps[0].state = .moving ∧ s.ramps[0].stage ≠ 0) ∧
    (handing (.zoneHold 7) base).inFlight (.zoneHold 7) = true ∧
    (handing (.withdrawal 1 .doorUnit) base).inFlight (.withdrawal 1 .doorUnit) = true ∧
    (let s := handing (.grant 0 .doorUnit) (setRelation 0 .requesting
        (withDoor 1 (fun r => { r with state := .waiting, demand := .close, origin := .host }) base));
      s.inFlight (.grant 0 .doorUnit) = true ∧ s.relation 0 = .requesting ∧
        s.nextToStart 0 = some 1 ∧ s.doorsMoving 0 < (s.packEntry 0).capacity) := by
  unfold State.isRampStation; decide +kernel

def doorAt (d : Fin 32) (st : DoorState) (f : DoorRecord → DoorRecord) : State :=
  withDoor d (fun r => f { r with state := st, demand := .close, origin := .host }) base

theorem witness_DoorTimersAndStart :
    (∀ d ∈ [(0 : Fin 32), 1],
      (let s := doorAt d .warning fun r => { r with warningTimer := some ⟨0, 9⟩ };
        s.doorEntry d ≠ none ∧ s.doors[d].warningTimer = some ⟨0, 9⟩ ∧ s.doors[d].state = .warning ∧
          s.doors[d].origin ≠ .zone ∧ s.doors[d].demand = .close) ∧
      (let s := handing (.doorStart d) (doorAt d .warning fun r => { r with warned := true });
        s.inFlight (.doorStart d) = true ∧ s.doors[d].state = .warning ∧ s.doors[d].warned = true ∧
          s.doors[d].demand = .close) ∧
      (∀ st ∈ [DoorState.closing, .opening],
        let s := doorAt d st fun r => { r with motionTimer := some ⟨0, 9⟩, card := some 1 };
        s.doors[d].motionTimer = some ⟨0, 9⟩ ∧ s.doors[d].state = st ∧ s.doors[d].card = some 1) ∧
      (∀ beam ∈ [true, false], ∀ used ∈ [2, 3],
        let s := doorAt d .obstructed fun r =>
          { r with retryTimer := some ⟨0, 9⟩, beam := beam, retriesUsed := used };
        s.doors[d].retryTimer = some ⟨0, 9⟩ ∧ s.doors[d].state = .obstructed ∧ s.doors[d].beam = beam ∧
          s.doors[d].retriesUsed = used)) ∧
    (let s := doorAt 0 .warning fun r => { r with warningTimer := some ⟨0, 9⟩, origin := .zone };
      s.doors[0].state = .warning ∧ s.doors[0].origin = .zone) ∧
    spring.kind.isHydraulic = false ∧ hydraulic.kind.isHydraulic = true ∧
      spring.retryLimit < 3 + 1 ∧ 2 + 1 ≤ spring.retryLimit ∧
    (let s := doorAt 1 .waiting fun r => { r with packWaitTimer := some ⟨0, 30000⟩ };
      s.doors[1].packWaitTimer = some ⟨0, 30000⟩ ∧ s.doorEntry 1 = some hydraulic ∧
        hydraulic.kind.pack? = some 0) := by decide +kernel

/-- Door 1, warned, is held open by its magnet, with the outputs and the images of its state. -/
def magnetic : State :=
  let s := handing (.doorStart 0) (doorAt 0 .warning fun r => { r with warned := true })
  let shown (s : State) : State := withDoor 0 (fun r => { r with outputs := doorOutputs .springFire r })
    (withDoor 1 (fun r => { r with outputs := doorOutputs (.hydraulicFire 0) r }) s)
  composed (withStation 1 .present false (shown s))

theorem witness_DoorTimersAndStart_magnet :
    magnetic.imagesFollow ∧ magnetic.doors[0].outputs.magnet = true ∧ magnetic.doorEntry 0 = some spring ∧
      (∀ d ∈ List.finRange 32, ∀ e ∈ magnetic.doorEntry d, e.point = spring.point → d = 0) ∧
      magnetic.stationKind spring.station = .door ∧ magnetic.sendsTo spring.station := by
  refine ⟨composed_imagesFollow _, ?_⟩
  unfold State.sendsTo; decide +kernel

theorem witness_DoorTimersAndStart_outputs : magnetic.outputsFollow := by
  intro d e h
  have hd : ∀ d : Fin 32, ((magnetic.doorEntry d).all fun e =>
      decide (magnetic.doors[d].outputs = doorOutputs e.kind magnetic.doors[d])) = true := by decide +kernel
  simpa [h] using hd d

/-- R119: a gate door that was closed by hand while deferred begins its close when its ramp is stowed. -/
theorem test_a_closed_door_closes_at_the_end_of_its_deferral :
    (endDeferral 1 (doorAt 1 .closed fun r => { r with origin := .zone, deferred := true })).doors[1].state ≠
      .closed := by decide +kernel

/-- R118: a close that a zone takes over goes on; its card ends CUT and no operation has ended. -/
theorem test_a_takeover_ends_the_card_alone :
    let s := withCard 1 .taken (doorAt 0 .closing fun r => { r with card := some 1, lastOutcome := some .ok })
    let t := takeDemand 0 0 s
    t.doors[0].state = .closing ∧ t.doors[0].lastOutcome = some .ok ∧ t.doors[0].card = none ∧
      t.cardWord 1 12 = 0x11 ∧ t.cardWord 1 13 = 1 := by decide +kernel

/-- Zone 1 has the close order door 2, door 1 and a stagger of 3 s, and door 1 has a warn time of 0. -/
def closeOrder (s : State) : State :=
  { s with tables :=
    { deckTables with
      doors := deckTables.doors.set 0 (some { spring with warnTime := 0 })
      zones := deckTables.zones.set 0 { zone with closeOrder := [1, 0], stagger := 3 } } }

/-- R136: warnings that end at one instant, and warn times of 0, start in close order: door 2 before door 1. -/
theorem test_equal_warn_times_start_in_close_order :
    let warned (r : DoorRecord) : DoorRecord :=
      { r with state := .warning, demand := .close, origin := .zone, warningTimer := some ⟨0, 9⟩ }
    let opened (r : DoorRecord) : DoorRecord := { r with state := .opened }
    let seen (t : State) := (t.handovers.contains (.doorStart 1), t.zones[0].startRequests)
    after (.warningTimerExpiry 0) (closeOrder (withDoor 0 warned (withDoor 1 warned base))) seen =
        some (true, [0]) ∧
      after (.zoneDemand 0)
        (closeOrder (handing (.zoneDemand 0) (withDoor 0 opened (withDoor 1 opened base)))) seen =
        some (true, [0]) := by decide +kernel

/-- R112: a grant stops the pack wait of every queued door, whatever the door unit asked. -/
theorem test_a_grant_stops_the_pack_waits :
    let s := doorAt 1 .waiting fun r => { r with packWaitTimer := some ⟨0, 9⟩ }
    (takeDoorGrant 0 s).doors[1].packWaitTimer = none := by decide +kernel

theorem witness_ZoneTimersAndDemands :
    (let s := withZone (fun r => { r with state := .alert, alarm := true, alertTimer := some ⟨0, 9⟩ }) base;
      s.zones[0].alertTimer = some ⟨0, 9⟩ ∧ s.zones[0].state = .alert ∧
        (s.zoneEntry 0).autoSeal = true ∧ s.zones[0].alarm = true) ∧
    (let s := withZone (fun r => { r with startRequests := [0], staggerTimer := some ⟨0, 9⟩ }) base;
      s.zones[0].staggerTimer = some ⟨0, 9⟩ ∧ 0 ∈ s.zones[0].startRequests ∧
        (s.zoneEntry 0).stagger = 0 ∧ s.zones[0].startRequests.length ≤ 32) ∧
    (let s := { withZone (fun r => { r with startRequests := [0], staggerTimer := some ⟨0, 9⟩ }) base with
        tables := { deckTables with zones := deckTables.zones.set 0 { zone with stagger := 3 } } };
      s.zones[0].startRequests = 0 :: [] ∧ (s.zoneEntry 0).stagger ≠ 0) ∧
    (let s := withZone (fun r => { r with staggerTimer := some ⟨0, 9⟩ }) base;
      s.zones[0].staggerTimer = some ⟨0, 9⟩ ∧ s.zones[0].startRequests = []) ∧
    (∀ part ∈ [PartState.running, .unconfigured],
      let s := inPart part (handing (.zoneDemand 0) base);
      s.inFlight (.zoneDemand 0) = true ∧ 0 ∈ s.doorsOfZone 0 ∧ s.part = part) := by decide +kernel

def twoZones : State :=
  setChannel 1 { base.channels[1] with progress := .sent, holder := some 0 }
    (setChannel 0
      { base.channels[0] with progress := .playing, holder := some 0, playTimer := some ⟨0, 120000⟩ }
      (withSlot (fun r => { r with state := .playing, zones := 3 }) base))

theorem witness_SealingNoticeAndCallTimers :
    (let s := handing (.sealingNotice 0) base;
      s.inFlight (.sealingNotice 0) = true ∧ (s.zoneEntry 0).clip ≠ 0 ∧
        (∀ i : Fin 16, s.slots[i].state ≠ .queued) ∧ ∃ i : Fin 16, s.slots[i].state = .free) ∧
    (let s := handing (.sealingNotice 7) base;
      s.inFlight (.sealingNotice 7) = true ∧ (s.zoneEntry 7).clip = 0) ∧
    (twoZones.channels[0].playTimer = some ⟨0, 120000⟩ ∧ twoZones.channels[0].holder = some 0 ∧
      twoZones.slots[0].state = .playing ∧ twoZones.channels[0].progress = .playing ∧
      (1 : Fin 8) ≠ 0 ∧ hasZone twoZones.slots[0].zones 1 = true ∧
      twoZones.channels[1].progress ≠ .done ∧ twoZones.channels[1].progress ≠ .silent ∧
      ∀ j : Fin 16, twoZones.slots[j].state ≠ .queued) ∧
    (let s := withStation 2 .present false
        (withSlot (fun r => { r with state := .gap, zones := 1, gapTimer := some ⟨0, 9⟩ }) base);
      s.slots[0].gapTimer = some ⟨0, 9⟩ ∧ s.slots[0].state = .gap ∧ s.slots[0].zones ≠ 0 ∧
        (∀ j : Fin 16, s.slots[j].state ≠ .queued) ∧
        ∀ z, hasZone s.slots[0].zones z = true → hasZone s.slots[0].silent z = false ∧
          ∃ n, (s.zoneEntry z).callStation = some n ∧ s.lostOrDisabled n = false) := by decide +kernel

/-- A call of slot 15 sounds in zone 8, which is being sealed, and in others. -/
def cutting (zones : BitVec 8) (st : SlotState) (done : Bool) : State :=
  let s := setSlot 15
    { SlotRecord.start with
      state := st, zones := zones, priority := .boarding, repeats := 2, gap := 3, card := some 1 }
    (handing (.sealingNotice 7) base)
  let s := setChannel 0
    { s.channels[0] with holder := some 15, progress := if done then .done else .playing } s
  setChannel 7 { s.channels[7] with holder := some 15, progress := .playing } s

theorem witness_SealingNoticeAndCallTimers_cut :
    ∀ st ∈ [SlotState.playing, .gap], ∀ zones ∈ [(0x80 : BitVec 8), 0x81], ∀ done ∈ [true, false],
      let s := cutting zones st done;
      s.memoryOk = true ∧ s.inFlight (.sealingNotice 7) = true ∧ (s.zoneEntry 7).clip = 0 ∧
        (∀ i : Fin 16, s.slots[i].state ≠ .queued) ∧ s.channels[7].holder = some 15 ∧
        s.slots[15].priority = .boarding ∧ s.slots[15].state = st ∧
        (s.slots[15].zones &&& ~~~ BitVec.twoPow 8 7 = 0 ↔ zones = 0x80) ∧ s.slots[15].gap ≠ 0 ∧
        s.slots[15].repeatsDone + 1 < s.slots[15].repeats ∧
        (s.channels[0].progress = .done ↔ done = true) := by decide +kernel

theorem witness_SealingNoticeAndCallTimers_sealingCall :
    (let s := handing (.sealingNotice 0) (withStation 2 .present false base);
      (s.zoneEntry 0).clip ≠ 0 ∧ (∀ j : Fin 16, s.slots[j].state ≠ .queued) ∧ s.slots[0].state = .free ∧
        s.channels[0].holder = none ∧ (s.zoneEntry 0).callStation = some 2 ∧ s.lostOrDisabled 2 = false) ∧
    (let s := setChannel 0 { base.channels[0] with holder := some 0 }
        (withSlot (fun r => { r with state := .playing, priority := .emergency })
          (handing (.sealingNotice 0) base));
      s.slots[1].state = .free ∧ (∀ j : Fin 16, j < 1 → s.slots[j].state ≠ .free) ∧
        s.channels[0].holder = some 0 ∧ s.slots[0].priority = .emergency) := by decide +kernel

end Sys2Proof.Tests
end

section
/-! The hand-overs of the line controller for a station out of service (02_stations.md, R27): one equation for
each of the three takings, and from them the obligation about every hand-over. -/

namespace Sys2Proof.Machine

/-- R27, an ANSWERED POLL. -/
theorem takeReport_of_disabled {i : Fin 48} {s : State} (h : s.stations[i].state = .disabled)
    (report : Word) : takeReport i report s = s := by
  simp only [takeReport, h]

/-- R27, an ANSWERED SET. -/
theorem takeAcknowledgement_of_disabled {i : Fin 48} {s : State}
    (h : s.stations[i].state = .disabled) (image : BitVec 32) :
    takeAcknowledgement i image s = s := by
  simp only [takeAcknowledgement, h]

/-- R27, every other final outcome. -/
theorem takeMiss_of_disabled {i : Fin 48} {s : State} (h : s.stations[i].state = .disabled) :
    takeMiss i s = s := by
  simp only [takeMiss, h]

/-- Settles O49: the set bit and the outcome choose the taking, and each taking leaves the state as it is. -/
theorem handOverForDisabledIsDiscarded : Obligations.HandOverForDisabledIsDiscarded := by
  unfold Obligations.HandOverForDisabledIsDiscarded
  intro t o payload s hdisabled
  cases o with
  | answered =>
    by_cases hset : t.isSet = true
    · simp only [takeHandOver, hset, if_true, takeAcknowledgement_of_disabled hdisabled]
    · simp only [takeHandOver, hset, if_false, takeReport_of_disabled hdisabled, Bool.false_eq_true]
  | naked | corrupt | noAnswer => exact takeMiss_of_disabled hdisabled

end Sys2Proof.Machine
end

section
/-! The end of a command (10_order_board_and_port.md, R183; LOG 9, LOG 11): the idle line chooses, records are
rewritten and the watch unit may post action cards. A card that the command has ended stays ended, and a command
that takes a card and ends it does nothing else (`endsOnly`). -/

namespace Sys2Proof.Machine

/-- Between two states no card's state changes but that of an action card that is posted (R167). -/
structure PostsOnly (s t : State) : Prop where
  card : ∀ c, t.cardState c = s.cardState c ∨ t.isPostedAction c

theorem PostsOnly.of_shadow {s t : State} (h : t.cards.shadow = s.cards.shadow) : PostsOnly s t :=
  ⟨fun c => .inl (by simp only [State.cardState, h])⟩

theorem PostsOnly.refl (s : State) : PostsOnly s s := .of_shadow rfl

theorem PostsOnly.trans {s t u : State} (h : PostsOnly s t) (g : PostsOnly t u) : PostsOnly s u := by
  refine ⟨fun c => ?_⟩
  rcases g.card c with hsame | hposted
  · rcases h.card c with hs | ⟨haction, hs⟩
    · exact .inl (hsame.trans hs)
    · exact .inr ⟨haction, hsame.trans hs⟩
  · exact .inr hposted

/-- What leaves the cards' states alone posts nothing. -/
theorem Keeps.posts {touched : List Piece} {s t : State} (h : Keeps touched s t)
    (hs : Piece.shadow ∉ touched) : PostsOnly s t := .of_shadow (h.same .shadow hs)

theorem PostsOnly.forList {α : Type} {l : List α} {f : α → State → State} {s : State}
    (h : ∀ i t, PostsOnly t (f i t)) : PostsOnly s (Machine.forList l f s) := by
  induction l generalizing s with
  | nil => exact .refl s
  | cons i rest ih => exact (h i s).trans ih

/-- The state of a board card stays as it is. -/
theorem PostsOnly.board {s t : State} (h : PostsOnly s t) {b : CardId} (hb : isBoardCard b = true) :
    t.cardState b = s.cardState b :=
  (h.card b).resolve_right fun ⟨haction, _⟩ => by simp [hb] at haction

theorem isBoardCard_actionCard (k : Fin 8) : isBoardCard (actionCard k) = false := by
  simp [isBoardCard, actionCard]

theorem postActionCard_posts (k : Fin 8) (s : State) : PostsOnly s (postActionCard k s) := by
  dsimp only [postActionCard]
  split
  · rename_i n _
    have posted : PostsOnly s (appendIntake (actionCard n) (setCardState (actionCard n) .posted s)) := by
      refine ⟨fun c => ?_⟩
      by_cases hc : actionCard n = c
      · subst hc
        exact .inr ⟨isBoardCard_actionCard n, by simp [State.cardState]⟩
      · exact .inl ((cardState_setCardState ..).trans (if_neg hc))
    have overrun : PostsOnly s (setWatch k { s.watch[k] with overrun := true } s) :=
      (setWatch_keeps ..).posts (by decide)
    cases s.cardState (actionCard n) with
    | free | done | refused => exact posted
    | posted | taken => exact overrun
  · exact .refl s

theorem countTrip_posts (k : Fin 8) (act : Bool) (s : State) : PostsOnly s (countTrip k act s) := by
  dsimp only [countTrip]
  split
  · exact ((setWatch_keeps ..).posts (by decide)).trans (postActionCard_posts ..)
  · exact (setWatch_keeps ..).posts (by decide)

theorem tripChannel_posts (k : Fin 8) (s : State) : PostsOnly s (tripChannel k s) := by
  dsimp only [tripChannel]
  split
  · exact countTrip_posts ..
  · split
    · exact (countTrip_posts ..).trans ((setWatch_keeps ..).posts (by decide))
    · split
      · exact (countTrip_posts ..).trans ((setWatch_keeps ..).posts (by decide))
      · exact .refl s

theorem evaluateChannel_posts (k : Fin 8) (s : State) : PostsOnly s (evaluateChannel k s) := by
  dsimp only [evaluateChannel]
  split
  · split
    · exact ((setWatch_keeps ..).posts (by decide)).trans (tripChannel_posts ..)
    · exact (setWatch_keeps ..).posts (by decide)
  · exact .refl s

theorem evaluateRecord_posts (id : RecordId) (s : State) : PostsOnly s (evaluateRecord id s) := by
  refine .forList fun k t => ?_
  split
  · exact evaluateChannel_posts ..
  · exact .refl t

theorem rewriteWatched_posts (id : RecordId) (s : State) : PostsOnly s (rewriteWatched id s) := by
  have evaluated : PostsOnly s (evaluateRecord id (rewrite id s)) :=
    ((rewrite_keeps id s).posts (by decide)).trans (evaluateRecord_posts id (rewrite id s))
  unfold rewriteWatched watchEvent
  exact evaluated.trans ((rewriteChannels_keeps ..).posts (by decide))

/-- The rewrites of an event post action cards and change no other card's state (R167). -/
theorem publish_posts (forced : RecordId → Bool) (s : State) : PostsOnly s (publish forced s) := by
  refine PostsOnly.trans (.forList fun id t => ?_) ((rewriteChannels_keeps ..).posts (by decide))
  split
  · exact rewriteWatched_posts ..
  · exact .refl t

/-! ### What the end of a command leaves of its acts -/

theorem SameBut.trans {a b touched : List Piece} {s t u : State} (h : SameBut a s t) (g : SameBut b t u)
    (ha : within a touched = true) (hb : within b touched = true) : SameBut touched s u := fun p hp =>
  Piece.same_trans (h p fun hm => hp (within_mem ha hm)) (g p fun hm => hp (within_mem hb hm))

/-- What is noted as changed is no piece. -/
theorem SameBut.setChanged {touched : List Piece} {s t : State} (h : SameBut touched s t) (l m : List RecordId) :
    SameBut touched { s with changed := l } { t with changed := m } := fun p hp => by
  have := h p hp
  cases p <;> exact this

theorem commandEvent_sameBut (forced : RecordId → Bool) (act : State → State) (s : State) :
    SameBut endPieces (act { s with changed := [] }) (commandEvent forced act s) :=
  ((chooseTransaction_keeps _).same.trans (publish_keeps forced _).same rfl rfl).setChanged _ s.changed

theorem commandEvent_posts (forced : RecordId → Bool) (act : State → State) (s : State) :
    PostsOnly (act { s with changed := [] }) (commandEvent forced act s) :=
  (((chooseTransaction_keeps _).posts (by decide)).trans (publish_posts forced _)).trans (.of_shadow rfl)

theorem commandEvent_flagsStay (forced : RecordId → Bool) (act : State → State) (s : State) :
    FlagsStay (act { s with changed := [] }) (commandEvent forced act s) := fun f hf =>
  (publish_keeps forced _).flags f ((chooseTransaction_keeps _).flags f hf)

/-! ### A card that is ended -/

/-- The four outcome words of an ended card are read back (R183). -/
theorem endCard_endedWith {c : CardId} {o : OrderOutcome} {d : Nat} {s : State} (h : s.memoryOk = true) :
    (endCard c o d s).endedWith c o d := by
  have wf0 : s.mem.wf = true := by
    simp only [State.memoryOk, Bool.and_eq_true] at h
    exact h.1
  have wf : ∀ {m : Memory} {k : Nat} (v : Word), 0 < k → k < 16 → m.wf = true →
      (m.write (cardAddress c k) v).wf = true := fun v h0 hk hm =>
    Memory.wf_write v (isView_cardAddress c h0 hk).2 hm
  have ne : ∀ {j k : Nat}, j < 16 → k < 16 → j ≠ k → cardAddress c j ≠ cardAddress c k :=
    fun hj hk hjk e => hjk (cardAddress_inj hj hk e).2
  have wf12 := wf (BitVec.ofNat 16 o.code) (k := 12) (by omega) (by omega) wf0
  have wf13 := wf (BitVec.ofNat 16 d) (k := 13) (by omega) (by omega) wf12
  have wf14 := wf (s.clock.setWidth 16) (k := 14) (by omega) (by omega) wf13
  refine ⟨?_, ?_, ?_, ?_, .inl ?_⟩
  · rw [State.cardWord, endCard, endCardAs_mem, Memory.read_write_ne _ _ (ne (by omega) (by omega) (by omega)),
      Memory.read_write_ne _ _ (ne (by omega) (by omega) (by omega)),
      Memory.read_write_ne _ _ (ne (by omega) (by omega) (by omega)), Memory.read_write_self _ wf0]
  · rw [State.cardWord, endCard, endCardAs_mem, Memory.read_write_ne _ _ (ne (by omega) (by omega) (by omega)),
      Memory.read_write_ne _ _ (ne (by omega) (by omega) (by omega)), Memory.read_write_self _ wf12]
  · rw [State.cardWord, endCard, endCardAs_mem, Memory.read_write_ne _ _ (ne (by omega) (by omega) (by omega)),
      Memory.read_write_self _ wf13, endCardAs_clock]
  · rw [State.cardWord, endCard, endCardAs_mem, Memory.read_write_self _ wf14, endCardAs_clock]
  · rw [endCard, endCardAs_cardState, if_pos rfl]

/-- An ended card stays so at the end of the command: at most the watch unit posts it again (R167). -/
theorem State.endedWith.after {c : CardId} {o : OrderOutcome} {d : Nat} {s t : State} (h : s.endedWith c o d)
    (same : SameBut endPieces s t) (posts : PostsOnly s t) : t.endedWith c o d := by
  have hmem : t.mem = s.mem := same .mem (by decide)
  have hclock : t.clock = s.clock := same .clock (by decide)
  obtain ⟨outcome, detail, low, high, state⟩ := h
  simp only [State.endedWith, State.cardWord, hmem, hclock]
  refine ⟨outcome, detail, low, high, ?_⟩
  rcases posts.card c with hsame | hposted
  · exact state.imp hsame.trans fun ⟨haction, hp⟩ => ⟨haction, hsame.trans hp⟩
  · exact .inr hposted

/-- A command whose last act is the end of a card has ended it. -/
theorem commandEvent_endedWith {act : State → State} {c : CardId} {o : OrderOutcome} {d : Nat} {s u : State}
    (ha : act { s with changed := [] } = endCard c o d u) (hu : u.memoryOk = true) :
    (commandEvent onChange act s).endedWith c o d := by
  have ended := endCard_endedWith (c := c) (o := o) (d := d) hu
  rw [← ha] at ended
  exact ended.after (commandEvent_sameBut onChange act s) (commandEvent_posts ..)

/-! ### The taking of a card -/

theorem takeHead_sameBut (c : CardId) (s : State) : SameBut [.shadow, .intake] s (takeHead c s) := by
  intro p hp
  cases p <;> first | (refine absurd ?_ hp; decide) | simp [Piece.same, takeHead]

theorem takeHead_cardState {b c : CardId} (s : State) (h : b ≠ c) :
    (takeHead c s).cardState b = s.cardState b :=
  (cardState_setCardState ..).trans (if_neg h.symm)

/-- A card that is taken and ended at once is all that the command does (`endsOnly`). -/
theorem commandEvent_endsOnly {act : State → State} {c : CardId} {o : OrderOutcome} {d : Nat} {s : State}
    (hm : s.memoryOk = true)
    (ha : act { s with changed := [] } = endCard c o d (takeHead c { s with changed := [] })) :
    endsOnly c o d s (commandEvent onChange act s) := by
  have atEnd := commandEvent_sameBut onChange act s
  have posts := commandEvent_posts onChange act s
  have flags := commandEvent_flagsStay onChange act s
  rw [ha] at atEnd posts flags
  have taken : SameBut ([.attention, .shadow, .intake] ++ cardPieces) s (endCard c o d (takeHead c s)) :=
    (takeHead_sameBut c s).trans (endCardAs_sameBut c o d _ _) rfl rfl
  have noted : SameBut ([.attention, .shadow, .intake] ++ cardPieces) s
      (endCard c o d (takeHead c { s with changed := [] })) := by
    rw [takeHead_setChanged, endCard_setChanged]
    exact taken.setChanged s.changed []
  refine ⟨noted.trans atEnd rfl rfl, commandEvent_endedWith ha hm, fun a hout => ?_, ?_, ?_,
    fun b hb hbc => ?_, fun hr => ?_⟩
  · have hmem : (commandEvent onChange act s).mem = _ := atEnd .mem (by decide)
    rw [hmem]
    exact endCardAs_read c o d _ _ hout
  · exact (atEnd .completed (by decide)).trans (by simp [endCard, takeHead])
  · exact flags .orders (by simp [endCard, endCardAs_hasFlag])
  · calc (commandEvent onChange act s).cardState b
        = (endCard c o d (takeHead c { s with changed := [] })).cardState b := posts.board hb
      _ = (takeHead c { s with changed := [] }).cardState b :=
          (endCardAs_cardState ..).trans (if_neg hbc.symm)
      _ = s.cardState b := takeHead_cardState _ hbc
  · rw [commandEvent_takenAndEnded hr ha]
    exact taken

theorem ofDeckNumber_deckNumber {n : Nat} (i : Fin n) : ofDeckNumber n (deckNumber i) = some i := by
  have h : 1 ≤ deckNumber i ∧ deckNumber i ≤ n := by simp only [deckNumber]; omega
  rw [ofDeckNumber, dif_pos h]
  rfl

/-- A card that passes the checks of its taking is handed to its owner (R182). -/
theorem takeOrder_of_takes {k : OrderKind} {owner : CardId → State → State} {c : CardId} {s : State}
    (h : s.takes k c) : takeOrder k owner s = owner c (takeHead c s) := by
  obtain ⟨hhead, hpasses⟩ := h
  simp only [takeOrder, hhead, hpasses]

/-- A card that passes the checks of its taking reaches the thing on deck it names (R182). -/
theorem takeOrder_withTarget {k : OrderKind} {n : Nat} {owner : Fin n → CardId → State → State} {c : CardId}
    {i : Fin n} {s : State} (h : s.takes k c) (ht : s.cardTarget c = deckNumber i) :
    takeOrder k (withTarget n owner) s = owner i c (takeHead c s) := by
  have htarget : (takeHead c s).cardTarget c = deckNumber i := ht
  rw [takeOrder_of_takes h, withTarget, htarget, ofDeckNumber_deckNumber]

end Sys2Proof.Machine
end

section
/-! A ramp that is not in MOVING is left alone by everything the door unit does (R79): of all that changes doors
only a gate door that leaves OPEN reaches a ramp, and it holds ramps in MOVING alone (R76). -/

namespace Sys2Proof.Machine

/-- A ramp that does not move has the same record in two states. -/
structure RestingRampStays (r : Fin 4) (s t : State) : Prop where
  record : s.ramps[r].state ≠ .moving → t.ramps[r] = s.ramps[r]

theorem RestingRampStays.refl (r : Fin 4) (s : State) : RestingRampStays r s s := ⟨fun _ => rfl⟩

theorem RestingRampStays.trans {r : Fin 4} {s t u : State} (h : RestingRampStays r s t)
    (g : RestingRampStays r t u) : RestingRampStays r s u :=
  ⟨fun hs => (g.record (by rw [h.record hs]; exact hs)).trans (h.record hs)⟩

/-- What leaves every ramp alone. -/
theorem Keeps.ramp {touched : List Piece} {s t : State} (h : Keeps touched s t)
    (hr : Piece.ramps ∉ touched) (r : Fin 4) : t.ramps[r] = s.ramps[r] := by
  rw [show t.ramps = s.ramps from h.same .ramps hr]

theorem Keeps.restingRamp {touched : List Piece} {s t : State} (h : Keeps touched s t)
    (hr : Piece.ramps ∉ touched) (r : Fin 4) : RestingRampStays r s t := ⟨fun _ => h.ramp hr r⟩

theorem RestingRampStays.forList {α : Type} {l : List α} {f : α → State → State} {r : Fin 4} {s : State}
    (h : ∀ i t, RestingRampStays r t (f i t)) : RestingRampStays r s (Machine.forList l f s) := by
  induction l generalizing s with
  | nil => exact .refl r s
  | cons i rest ih => exact (h i s).trans ih

/-- A program that stops short of its end is that of one ramp (R76, R80). -/
theorem stopProgram_other {q r : Fin 4} (hq : q ≠ r) (after : RampRecord) (o : OrderOutcome) (s : State) :
    (stopProgram q after o s).ramps[r] = s.ramps[r] := by
  have other : ∀ (x : RampRecord) (t : State), (setRamp q x t).ramps[r] = t.ramps[r] := fun x t => by
    rw [setRamp_get, if_neg hq]
  have valves : ∀ t : State, (contributeValves q 0 true t).ramps[r] = t.ramps[r] := fun t =>
    ((contributeRamp_keeps ..).ramp (by decide) r).trans (other ..)
  have given : ∀ (waiting : Bool) (t : State), (giveBackPack q waiting t).ramps[r] = t.ramps[r] := by
    intro waiting t
    cases he : t.rampEntry q with
    | none => simp only [giveBackPack, he]
    | some e =>
      cases waiting with
      | true =>
        simp only [giveBackPack, he]
        exact (withdraw_keeps ..).ramp (by decide) r
      | false =>
        simp only [giveBackPack, he]
        exact ((releasePack_keeps ..).ramp (by decide) r).trans (valves t)
  exact ((endCardOf_keeps ..).ramp (by decide) r).trans ((given ..).trans (other ..))

/-- A hold has no effect but on a ramp in MOVING (R76). -/
theorem holdRamp_restingRamp (q r : Fin 4) (cause : HoldCause) (s : State) :
    RestingRampStays r s (holdRamp q cause s) := by
  refine ⟨fun hrests => ?_⟩
  dsimp only [holdRamp]
  split
  · next hmoving =>
    have hq : q ≠ r := fun e => hrests (e ▸ hmoving)
    exact stopProgram_other hq ..
  · rfl

theorem gateLeftOpen_restingRamp (d : Fin 32) (r : Fin 4) (s : State) :
    RestingRampStays r s (gateLeftOpen d s) := by
  refine .forList fun q t => ?_
  split
  · split
    · exact holdRamp_restingRamp ..
    · exact .refl r t
  · exact .refl r t

theorem setDoor_restingRamp (d : Fin 32) (x : DoorRecord) (r : Fin 4) (s : State) :
    RestingRampStays r s (setDoor d x s) := by
  have shown : ∀ (y : DoorRecord) (urgent : Bool),
      RestingRampStays r s (contributeDoor d urgent (putDoor d y s)) := fun y urgent =>
    (setDoor_contribute d y urgent s).restingRamp (by decide) r
  have reported : ∀ t, RestingRampStays r t (reportDoorState d t) := fun t =>
    (reportDoorState_keeps d t).restingRamp (by decide) r
  dsimp only [setDoor]
  split
  · exact .refl r s
  · split
    · exact shown ..
    · split
      · exact ((shown ..).trans (gateLeftOpen_restingRamp ..)).trans (reported _)
      · exact (shown ..).trans (reported _)

theorem startMove_restingRamp (d : Fin 32) (r : Fin 4) (s : State) :
    RestingRampStays r s (startMove d s) := by
  dsimp only [startMove]
  split
  · split <;> exact setDoor_restingRamp ..
  · exact .refl r s

theorem startQueued_restingRamp (n : Nat) (p : Fin 2) (r : Fin 4) (s : State) :
    RestingRampStays r s (startQueued n p s) := by
  induction n generalizing s with
  | zero => exact .refl r s
  | succ n ih =>
    unfold startQueued
    split
    · split
      · exact (startMove_restingRamp ..).trans (ih _)
      · exact .refl r s
    · exact .refl r s

theorem actOnPack_restingRamp (p : Fin 2) (r : Fin 4) (s : State) :
    RestingRampStays r s (actOnPack p s) := by
  have relation : ∀ (x : PackRelation) (t : State), RestingRampStays r t (setRelation p x t) := fun x t =>
    (setRelation_keeps p x t).restingRamp (by decide) r
  have request : ∀ (k : RequestClass) (t : State), RestingRampStays r t (requestPack p .doorUnit k t) :=
    fun k t => (requestPack_keeps p .doorUnit k t).restingRamp (by decide) r
  dsimp only [actOnPack]
  cases s.relation p with
  | idle =>
    dsimp only
    split
    · exact (relation ..).trans (request ..)
    · exact .refl r s
  | requesting =>
    dsimp only
    split
    · exact (relation ..).trans ((withdraw_keeps ..).restingRamp (by decide) r)
    · split
      · exact request ..
      · exact .refl r s
  | holding =>
    dsimp only
    split
    · exact ((startQueued_restingRamp ..).trans (relation ..)).trans
        ((releasePack_keeps ..).restingRamp (by decide) r)
    · exact startQueued_restingRamp ..

theorem endDoorEvent_restingRamp (r : Fin 4) (s : State) : RestingRampStays r s (endDoorEvent s) := by
  have started : RestingRampStays r s (giveAllStarts s) := (giveAllStarts_keeps s).restingRamp (by decide) r
  unfold endDoorEvent actOnPacks
  exact (started.trans (actOnPack_restingRamp 0 r _)).trans (actOnPack_restingRamp 1 r _)

theorem enterWaiting_restingRamp (d : Fin 32) (x : DoorRecord) (r : Fin 4) (s : State) :
    RestingRampStays r s (enterWaiting d x s) := by
  dsimp only [enterWaiting]
  split
  · exact setDoor_restingRamp ..
  · exact .refl r s

theorem endOperation_restingRamp (d : Fin 32) (x : DoorRecord) (o : OrderOutcome) (detail : Nat) (r : Fin 4)
    (s : State) : RestingRampStays r s (endOperation d x o detail s) := by
  dsimp only [endOperation]
  split
  · exact (setDoor_restingRamp ..).trans ((reportDoorEnd_keeps ..).restingRamp (by decide) r)
  · exact (setDoor_restingRamp ..).trans ((endCardOf_keeps ..).restingRamp (by decide) r)

theorem makeStart_restingRamp (d : Fin 32) (r : Fin 4) (s : State) :
    RestingRampStays r s (makeStart d s) := by
  dsimp only [makeStart]
  split
  · split
    · exact enterWaiting_restingRamp ..
    · exact setDoor_restingRamp ..
  · exact .refl r s

theorem warningRun_restingRamp (d : Fin 32) (r : Fin 4) (s : State) :
    RestingRampStays r s (warningRun d s) := by
  dsimp only [warningRun]
  split
  · split
    · exact (setDoor_restingRamp ..).trans ((askStart_keeps ..).restingRamp (by decide) r)
    · exact makeStart_restingRamp ..
  · exact .refl r s

theorem beginClose_restingRamp (d : Fin 32) (x : DoorRecord) (r : Fin 4) (s : State) :
    RestingRampStays r s (beginClose d x s) := by
  dsimp only [beginClose]
  split
  · split
    · exact (setDoor_restingRamp ..).trans (warningRun_restingRamp ..)
    · exact setDoor_restingRamp ..
  · exact .refl r s

theorem endDeferral_restingRamp (d : Fin 32) (r : Fin 4) (s : State) :
    RestingRampStays r s (endDeferral d s) := by
  dsimp only [endDeferral]
  split
  · split
    · exact setDoor_restingRamp ..
    · exact beginClose_restingRamp ..
  · exact .refl r s

theorem stopGateClose_restingRamp (d : Fin 32) (r : Fin 4) (s : State) :
    RestingRampStays r s (stopGateClose d s) := by
  dsimp only [stopGateClose]
  split
  · split
    · exact setDoor_restingRamp ..
    · exact endOperation_restingRamp ..
  · exact .refl r s

/-- What the door unit does when a ramp enters or leaves STOWED (R119). -/
theorem takeRampStowed_restingRamp (q : Fin 4) (stowed : Bool) (r : Fin 4) (s : State) :
    RestingRampStays r s (takeRampStowed q stowed s) := by
  dsimp only [takeRampStowed]
  split
  · exact .refl r s
  · refine (((setRampStowed_keeps ..).restingRamp (by decide) r).trans (.forList fun d t => ?_)).trans
      (endDoorEvent_restingRamp ..)
    split
    · exact endDeferral_restingRamp ..
    · exact stopGateClose_restingRamp ..

end Sys2Proof.Machine
end

section
/-! RAMP CLEAR (04_ramp_motion.md, R70). -/

namespace Sys2Proof.Machine

/-- The switches never say MOVING (R64). -/
theorem RampRecord.switchState_ne_moving (x : RampRecord) : x.switchState ≠ .moving := by
  unfold RampRecord.switchState
  split
  · decide
  · split <;> decide

/-- A ramp that RAMP CLEAR takes out of FAULT: what the door unit does when it is told leaves it so. -/
theorem clearRamp_record (r : Fin 4) (s : State) :
    (clearRamp r s).ramps[r] =
      { s.ramps[r] with
        state := s.ramps[r].switchState, program := .none, stage := 0, programStage := 0,
        faultCause := .none } := by
  rw [clearRamp, tellStowed, (takeRampStowed_restingRamp _ _ r _).record ?_, setRamp_get, if_pos rfl]
  rw [setRamp_get, if_pos rfl]
  exact s.ramps[r].switchState_ne_moving

theorem State.reported_eq_true {s : State} {i : Fin 48} :
    s.reported i = true ↔ s.stations[i].state = .present ∧ s.stations[i].reportAwaited = false := by
  simp [State.reported]

theorem State.reported_eq_false {s : State} {i : Fin 48} :
    s.reported i = false ↔ s.stations[i].state ≠ .present ∨ s.stations[i].reportAwaited = true := by
  rw [← Bool.not_eq_true, State.reported_eq_true, not_and_or, Bool.not_eq_false]

/-- The judgement of RAMP CLEAR on a fitted ramp, which the taking of the card does not change (R70). -/
theorem judgeRampClear_takeHead {r : Fin 4} {e : RampEntry} {s : State} (he : s.rampEntry r = some e)
    (c : CardId) :
    judgeRampClear r (takeHead c s) =
      if s.ramps[r].state = .fault then if s.reported e.station then (.ok, 0) else (.interlock, 0)
      else (.wrongState, 0) := by
  have he' : (takeHead c s).rampEntry r = some e := he
  simp only [judgeRampClear, he']
  rfl

/-- RAMP CLEAR that is judged with a refusal ends its card and does nothing else (R70). -/
theorem rampClear_refused {c : CardId} {r : Fin 4} {o : OrderOutcome} {s : State} (hm : s.memoryOk = true)
    (ht : s.takes .rampClear c) (hr : s.cardTarget c = deckNumber r)
    (hj : judgeRampClear r (takeHead c s) = (o, 0)) (ho : o ≠ .ok) :
    completes .rampClear s (endsOnly c o 0 s) := by
  refine ⟨_, rfl, commandEvent_endsOnly hm ?_⟩
  have hj' : judgeRampClear r (takeHead c { s with changed := [] }) = (o, 0) := hj
  rw [takeOrder_withTarget (s := { s with changed := [] }) ht hr, rampClearOrder, hj']
  split
  · next heq => exact absurd (congrArg Prod.fst heq) ho
  · next heq => cases heq; rfl

/-- RAMP CLEAR that is judged OK takes the ramp out of FAULT and ends its card (R70). -/
theorem rampClear_accepted {c : CardId} {r : Fin 4} {s : State} (hm : s.memoryOk = true)
    (ht : s.takes .rampClear c) (hr : s.cardTarget c = deckNumber r)
    (hj : judgeRampClear r (takeHead c s) = (.ok, 0)) :
    completes .rampClear s fun t =>
      SameBut (endPieces ++ deckPieces) s t ∧ t.endedWith c .ok 0 ∧
        t.ramps[r] =
          { s.ramps[r] with
            state := s.ramps[r].switchState, program := .none, stage := 0, programStage := 0,
            faultCause := .none } := by
  have hj' : judgeRampClear r (takeHead c { s with changed := [] }) = (.ok, 0) := hj
  have ha : takeOrder .rampClear (withTarget 4 rampClearOrder) { s with changed := [] } =
      endCard c .ok 0 (clearRamp r (takeHead c { s with changed := [] })) := by
    rw [takeOrder_withTarget (s := { s with changed := [] }) ht hr, rampClearOrder, hj']
  have atEnd := commandEvent_sameBut onChange (takeOrder .rampClear (withTarget 4 rampClearOrder)) s
  rw [ha] at atEnd
  have cleared := clearRamp_keeps r (takeHead c { s with changed := [] })
  have ended := endCard_keeps c .ok 0 (clearRamp r (takeHead c { s with changed := [] }))
  have taken : SameBut [.shadow, .intake] s (takeHead c { s with changed := [] }) :=
    (takeHead_sameBut c s).setChanged s.changed []
  refine ⟨_, rfl, ?_, commandEvent_endedWith ha (cleared.memoryOk hm), ?_⟩
  · have acts : SameBut (endPieces ++ deckPieces) s
        (endCard c .ok 0 (clearRamp r (takeHead c { s with changed := [] }))) :=
      (taken.trans cleared.same (touched := endPieces ++ deckPieces) rfl rfl).trans ended.same rfl rfl
    exact acts.trans atEnd rfl rfl
  · calc (commandEvent onChange (takeOrder .rampClear (withTarget 4 rampClearOrder)) s).ramps[r]
        = (endCard c .ok 0 (clearRamp r (takeHead c { s with changed := [] }))).ramps[r] := by
          rw [show State.ramps (commandEvent ..) = _ from atEnd .ramps (by decide)]
      _ = (clearRamp r (takeHead c { s with changed := [] })).ramps[r] := by rw [endCard, endCardAs_ramps]
      _ = _ := clearRamp_record r _

/-- Settles O28: the ramp's state and its station choose the judgement; a refusal only ends the card, and the
ramp that is cleared stays as it is while the door unit is told of its switches. -/
theorem rampClearLeavesFault : Obligations.RampClearLeavesFault := by
  unfold Obligations.RampClearLeavesFault
  intro c r e s hm ht hr he
  have hj := judgeRampClear_takeHead he c
  refine ⟨fun hfault hpresent hawaited => ?_, fun hfault hstation => ?_, fun hfault => ?_⟩
  · rw [if_pos hfault, if_pos (State.reported_eq_true.2 ⟨hpresent, hawaited⟩)] at hj
    exact rampClear_accepted hm ht hr hj
  · rw [if_pos hfault, State.reported_eq_false.2 hstation] at hj
    exact rampClear_refused hm ht hr hj (by decide)
  · rw [if_neg hfault] at hj
    exact rampClear_refused hm ht hr hj (by decide)

end Sys2Proof.Machine
end

section
/-! The test of a watched value (09_condition_watch.md, R164): one equivalence for each test. -/

namespace Sys2Proof.Machine

/-- Two words agree under a mask when no bit in which they differ is in the mask. -/
theorem xor_and_eq_zero_iff (v r m : Word) :
    (v ^^^ r) &&& m = 0 ↔
      ∀ i : Fin 16, m.getLsbD i.val = true → v.getLsbD i.val = r.getLsbD i.val := by
  constructor
  · intro h i hmask
    have bit : ((v ^^^ r) &&& m).getLsbD i.val = false := by simp [h]
    rw [BitVec.getLsbD_and, BitVec.getLsbD_xor, hmask, Bool.and_true] at bit
    simpa using bit
  · intro h
    refine BitVec.eq_of_getLsbD_eq fun i hi => ?_
    cases hmask : m.getLsbD i with
    | false => simp [hmask]
    | true => simp [h ⟨i, hi⟩ hmask]

theorem WatchRecord.matches_equal {w : WatchRecord} (h : w.test = .equal) (v : Word) :
    w.matches v = true ↔ (v ^^^ w.reference) &&& w.mask = 0 := by
  simp only [WatchRecord.matches, h, beq_iff_eq]

theorem WatchRecord.matches_atLeast {w : WatchRecord} (h : w.test = .atLeast) (v : Word) :
    w.matches v = true ↔ w.reference.toNat ≤ v.toNat := by
  simp only [WatchRecord.matches, h, decide_eq_true_iff, BitVec.le_def]

theorem WatchRecord.matches_atMost {w : WatchRecord} (h : w.test = .atMost) (v : Word) :
    w.matches v = true ↔ v.toNat ≤ w.reference.toNat := by
  simp only [WatchRecord.matches, h, decide_eq_true_iff, BitVec.le_def]

/-- Settles O43: each test's own equivalence, and a mask of 0 asks for no bit. -/
theorem watchTestCompares : Obligations.WatchTestCompares := by
  unfold Obligations.WatchTestCompares
  intro w v
  refine ⟨fun hequal => ?_, fun hleast => WatchRecord.matches_atLeast hleast v,
    fun hmost => WatchRecord.matches_atMost hmost v, fun hequal hmask => ?_⟩
  · exact (WatchRecord.matches_equal hequal v).trans (xor_and_eq_zero_iff ..)
  · rw [WatchRecord.matches_equal hequal, hmask]
    exact BitVec.and_zero

end Sys2Proof.Machine
end

section
/-! WATCH CLEAR (09_condition_watch.md, R171). No owner's record changes and an idle line reads no watch channel,
so the end of the command does nothing: no channel is evaluated after the order has cleared its flags. -/

namespace Sys2Proof.Machine

/-! ### What the rewrites of channels leave -/

theorem SameRecords.refl (s : State) : SameRecords s s := by
  constructor <;> rfl

/-- A rewrite advances a change count and raises a flag; no record changes. -/
theorem rewrite_sameRecords (id : RecordId) (s : State) : SameRecords s (rewrite id s) := by
  constructor <;> rfl

theorem SameRecords.forList {α : Type} {l : List α} {f : α → State → State} {s : State}
    (h : ∀ i t, SameRecords t (f i t)) : SameRecords s (Machine.forList l f s) := by
  induction l generalizing s with
  | nil => exact .refl s
  | cons i rest ih => exact (h i s).trans ih

theorem rewriteChannels_sameRecords (differs : Fin 8 → Bool) (s : State) :
    SameRecords s (rewriteChannels differs s) := by
  refine .forList (l := List.finRange 8) fun k t => ?_
  split
  · exact rewrite_sameRecords ..
  · exact .refl t

theorem forList_changed {α : Type} {l : List α} {f : α → State → State} {s : State}
    (h : ∀ i t, (f i t).changed = t.changed) : (forList l f s).changed = s.changed := by
  induction l generalizing s with
  | nil => rfl
  | cons i rest ih => exact ih.trans (h i s)

/-- Channels are rewritten by the watch unit's own events, so none is noted (R172). -/
theorem rewriteChannels_changed (differs : Fin 8 → Bool) (s : State) :
    (rewriteChannels differs s).changed = s.changed := by
  refine forList_changed (l := List.finRange 8) fun k t => ?_
  split <;> rfl

/-! ### The line and the watch channels -/

theorem rosterSearch_of_qualifies {s t : State} (h : t.qualifies = s.qualifies) (n : Nat) (p : Fin 48)
    (c : Fin 4) : rosterSearch t n p c = rosterSearch s n p c := by
  induction n generalizing p c with
  | zero => rfl
  | succ n ih => simp only [rosterSearch, h, ih]

/-- Whether an idle line has something to send does not hang on a watch channel (R20). -/
theorem setWatch_lineRests {s : State} (h : s.lineRests) (k : Fin 8) (r : WatchRecord) :
    (setWatch k r s).lineRests := by
  intro hidle
  obtain ⟨entry, roster, fast⟩ := h hidle
  have visit : (setWatch k r s).rosterVisit = s.rosterVisit := by
    unfold State.rosterVisit
    exact rosterSearch_of_qualifies (s := s) (t := setWatch k r s) rfl ..
  exact ⟨entry, visit.trans roster, fast⟩

/-! ### The taking of a card that names a slot or channel -/

theorem ofSlotNumber_val {n : Nat} (i : Fin n) : ofSlotNumber n i.val = some i := dif_pos i.isLt

/-- A card that passes the checks of its taking reaches the slot or channel it names (R182). -/
theorem takeOrder_withSlot {k : OrderKind} {n : Nat} {owner : Fin n → CardId → State → State} {c : CardId}
    {i : Fin n} {s : State} (h : s.takes k c) (ht : s.cardTarget c = i.val) :
    takeOrder k (withSlot n owner) s = owner i c (takeHead c s) := by
  have htarget : (takeHead c s).cardTarget c = i.val := ht
  rw [takeOrder_of_takes h, withSlot, htarget, ofSlotNumber_val]

/-! ### The order -/

/-- A channel whose flags are cleared. -/
def WatchRecord.cleared (w : WatchRecord) : WatchRecord :=
  { w with matched := false, aSeen := false, overrun := false }

/-- Clearing stores the channel with its flags cleared, and changes no other record. -/
theorem clearChannel_sameRecords (k : Fin 8) (s : State) :
    SameRecords (setWatch k s.watch[k].cleared s) (clearChannel k s) := by
  unfold clearChannel watchEvent
  exact rewriteChannels_sameRecords ..

theorem clearChannel_changed (k : Fin 8) (s : State) : (clearChannel k s).changed = s.changed :=
  rewriteChannels_changed ..

/-- WATCH CLEAR leaves the line as it rests, and notes no change. -/
theorem clearChannel_lineRests {s : State} (h : s.lineRests) (k : Fin 8) : (clearChannel k s).lineRests :=
  (clearChannel_sameRecords k s).lineRests (setWatch_lineRests h k _)

/-- The channels after WATCH CLEAR on one of them (R171). -/
theorem clearChannel_watch (j k : Fin 8) (s : State) :
    (clearChannel k s).watch[j] = if j = k then s.watch[k].cleared else s.watch[j] := by
  rw [(clearChannel_sameRecords k s).watch, setWatch_get]
  simp only [eq_comm]

/-- The channel that a taken card names, cleared: the acts of WATCH CLEAR before its card ends. -/
def takeAndClear (c : CardId) (k : Fin 8) (s : State) : State :=
  clearChannel k (takeHead c { s with changed := [] })

theorem takeAndClear_sameBut (c : CardId) (k : Fin 8) (s : State) :
    SameBut (endPieces ++ cardPieces) s (takeAndClear c k s) :=
  ((takeHead_sameBut c s).setChanged s.changed []).trans (clearChannel_keeps k _).same rfl rfl

theorem takeAndClear_changed (c : CardId) (k : Fin 8) (s : State) : (takeAndClear c k s).changed = [] :=
  clearChannel_changed ..

theorem taken_sameRecords (c : CardId) (s : State) : SameRecords s (takeHead c { s with changed := [] }) :=
  (changed_sameRecords s []).trans (takeHead_sameRecords ..)

theorem takeAndClear_lineRests {s : State} (h : s.lineRests) (c : CardId) (k : Fin 8) :
    (takeAndClear c k s).lineRests :=
  clearChannel_lineRests ((taken_sameRecords c s).lineRests h) k

theorem takeAndClear_watch (c : CardId) (j k : Fin 8) (s : State) :
    (takeAndClear c k s).watch[j] = if j = k then s.watch[k].cleared else s.watch[j] := by
  rw [takeAndClear, clearChannel_watch, (taken_sameRecords c s).watch]

/-- A command that ends a card after acts that note no change, the line at rest: the channels stay as the acts
leave them, since no record is rewritten and so no channel evaluated. -/
theorem commandEvent_endCard_watch {act : State → State} {c : CardId} {o : OrderOutcome} {d : Nat} {s u : State}
    (ha : act { s with changed := [] } = endCard c o d u) (hr : u.lineRests) (hu : u.changed = []) :
    (commandEvent onChange act s).watch = u.watch := by
  have ended := endCard_sameRecords c o d u
  have rests : (act { s with changed := [] }).lineRests := ha ▸ ended.lineRests hr
  have unnoted : (act { s with changed := [] }).changed = [] := by rw [ha, endCard, endCardAs_changed, hu]
  calc (commandEvent onChange act s).watch
      = (act { s with changed := [] }).watch := by rw [commandEvent_same rests unnoted]
    _ = u.watch := by rw [ha, ended.watch]

/-- Settles O42: the taking ends in the channel cleared and the card ended, and at the end of the command an idle
line rests and no record is rewritten, so that the channels stay as the order leaves them. -/
theorem watchClearClearsTheFlags : Obligations.WatchClearClearsTheFlags := by
  unfold Obligations.WatchClearClearsTheFlags
  intro c k s hm hr ht hk
  have acts : takeOrder .watchClear (withSlot 8 (watchOrder clearChannel)) { s with changed := [] } =
      endCard c .ok 0 (takeAndClear c k s) :=
    takeOrder_withSlot (s := { s with changed := [] }) ht hk
  have memory : (takeAndClear c k s).memoryOk = true := (clearChannel_keeps k _).memoryOk hm
  refine ⟨_, rfl, ?_, commandEvent_endedWith acts memory, fun j => ?_⟩
  · have acted : SameBut (endPieces ++ cardPieces) s (endCard c .ok 0 (takeAndClear c k s)) :=
      (takeAndClear_sameBut c k s).trans (endCard_keeps ..).same rfl rfl
    have atEnd := commandEvent_sameBut onChange (takeOrder .watchClear (withSlot 8 (watchOrder clearChannel))) s
    rw [acts] at atEnd
    exact acted.trans atEnd rfl rfl
  · rw [commandEvent_endCard_watch acts (takeAndClear_lineRests hr c k) (takeAndClear_changed c k s)]
    exact takeAndClear_watch c j k s

end Sys2Proof.Machine
end

section
/-! The attention line (10_order_board_and_port.md, R176): a bit of ATTENTION AND the enables is a flag that is
set and enabled, and each register write is followed in those terms. -/

namespace Sys2Proof.Machine

/-! ### The flags and their bits (R174) -/

/-- Every bit of ATTENTION is a flag's. -/
theorem Flag.exists_bit_eq {i : Nat} (h : i < 10) : ∃ f : Flag, f.bit = i := by
  have all : ∀ j : Fin 10, ∃ f ∈ [Flag.orders, .stations, .packs, .ramps, .doors, .zones, .calls, .watch,
      .misuse, .stop], f.bit = j.val := by decide
  obtain ⟨f, _, hf⟩ := all ⟨i, h⟩
  exact ⟨f, hf⟩

theorem Flag.bit_lt (f : Flag) : f.bit < 10 := by cases f <;> decide

/-- A register of ten bits takes the word's own bit at every flag (R174, R175). -/
theorem getLsbD_setWidth_flag (v : Word) (f : Flag) : (v.setWidth 10).getLsbD f.bit = v.getLsbD f.bit := by
  simp [f.bit_lt]

/-- A write to ATTENTION keeps a flag only where its bit is written 1 (R175). -/
theorem hasFlag_clearFlags (v : Word) (f : Flag) (s : State) :
    (clearFlags v s).hasFlag f = (s.hasFlag f && v.getLsbD f.bit) := by
  rw [State.hasFlag, clearFlags_attention, BitVec.getLsbD_and, getLsbD_setWidth_flag, State.hasFlag]

/-! ### The line -/

/-- R176 as it is stated: the AND of the two registers is not 0 because some flag's bit stands in both. -/
theorem State.attentionLine_iff (s : State) :
    s.attentionLine = true ↔ ∃ f : Flag, s.hasFlag f = true ∧ s.enables.getLsbD f.bit = true := by
  rw [State.attentionLine, bne_iff_ne]
  constructor
  · intro hne
    by_contra hnone
    refine hne (BitVec.eq_of_getLsbD_eq fun i hi => Eq.trans ?_ BitVec.getLsbD_zero.symm)
    obtain ⟨f, rfl⟩ := Flag.exists_bit_eq hi
    rw [BitVec.getLsbD_and, Bool.eq_false_iff, ne_eq, Bool.and_eq_true]
    exact fun hboth => hnone ⟨f, hboth⟩
  · rintro ⟨f, hset, henabled⟩ hzero
    have bit : (s.attention &&& s.enables).getLsbD f.bit = true := by
      rw [BitVec.getLsbD_and, henabled, Bool.and_true]
      exact hset
    simp [hzero] at bit

theorem State.attentionLine_eq_false_iff (s : State) :
    s.attentionLine = false ↔ ∀ f : Flag, s.hasFlag f = true → s.enables.getLsbD f.bit = false := by
  simp [← Bool.not_eq_true, State.attentionLine_iff]

/-! ### The register writes -/

/-- A PORT CONTROL word without the restart code sets the enables and nothing else (R174). -/
theorem exec_portControlEnables {v : Word} (h : hasRestartCode v = false) (s : State) :
    exec (.portControlEnables v) s = .next (setEnables (v.setWidth 10) s) := by
  simp [exec, execPortControlEnables, writePortControl, h]

/-- Settles O15: the line by its flags, and so after each of the three commands by what the command makes of the
flags and the enables. -/
theorem attentionLineFollowsFlagsAndEnables : Obligations.AttentionLineFollowsFlagsAndEnables := by
  unfold Obligations.AttentionLineFollowsFlagsAndEnables
  refine ⟨State.attentionLine_iff, fun s f v hset hbit hcode => ?_, fun s v hcleared => ?_, fun a b p s => ?_⟩
  · refine ⟨_, exec_portControlEnables hcode s, (State.attentionLine_iff _).2 ⟨f, hset, ?_⟩⟩
    rwa [setEnables_enables, getLsbD_setWidth_flag]
  · refine ⟨clearFlags v s, rfl, (State.attentionLine_eq_false_iff _).2 fun f hkept => ?_⟩
    obtain ⟨hset, hbit⟩ : s.hasFlag f = true ∧ v.getLsbD f.bit = true := by
      rwa [hasFlag_clearFlags, Bool.and_eq_true] at hkept
    rw [clearFlags_enables, Bool.eq_false_iff]
    exact fun henabled => by simp [hcleared f hset henabled] at hbit
  · exact ⟨_, rfl, (State.attentionLine_eq_false_iff _).2 fun f _ => BitVec.getLsbD_zero⟩

end Sys2Proof.Machine
end

section
/-! Host writes to cards (10_order_board_and_port.md, R178 to R180): where a card's words lie, the judgement of a
write to the state word by the card's shadow, and the posts and withdrawals as such writes. -/

namespace Sys2Proof.Machine

/-! ### Where a card's words lie -/

theorem cardAddress_not_header (c : CardId) (k : Nat) : ¬ cardAddress c k < Config.cardBase := by
  simp only [cardAddress]; omega

/-- A card word's address is one that a host write can carry. -/
theorem toNat_cardAddress (c : CardId) {k : Nat} (hk : k < 16) :
    (BitVec.ofNat 14 (cardAddress c k)).toNat = cardAddress c k := by
  have hc := c.isLt
  rw [BitVec.toNat_ofNat, cardAddress, Config.cardBase]
  omega

theorem isBoardCard_iff (c : CardId) : isBoardCard c = true ↔ c.val < 32 := decide_eq_true_iff

/-- The host reads a card's shadow as its state word (R178). -/
theorem sharedWord_stateWord (c : CardId) (s : State) :
    s.sharedWord (cardAddress c 0) = (s.cardState c).code := by
  simp only [State.sharedWord, cardAddress_not_header, if_false, cardAt_cardAddress c (k := 0) (by omega)]

/-! ### What a host write does to a card -/

/-- A write to a state word is judged by the shadow and the card's kind (R178). -/
theorem exec_hostWrite_stateWord {s : State} (h : s.part ≠ .starting) (c : CardId) (v : Word) :
    exec (.hostWrite (BitVec.ofNat 14 (cardAddress c 0)) v) s = .next (writeStateWord c v s) := by
  simp only [exec, execHostWrite, hostWrite, toNat_cardAddress c (k := 0) (by omega), h, if_false,
    cardAddress_not_header, cardAt_cardAddress c (k := 0) (by omega)]

/-- A write to another word of a card is judged by whether the card is TAKEN (R178). -/
theorem exec_hostWrite_bodyWord {s : State} (h : s.part ≠ .starting) (c : CardId) {k : Fin 16} (hk : k ≠ 0)
    (v : Word) :
    exec (.hostWrite (BitVec.ofNat 14 (cardAddress c k.val)) v) s = .next
      (if s.cardState c = .taken then discardWrite (cardAddress c k.val) .takenCard s
      else writeWord (cardAddress c k.val) v s) := by
  obtain ⟨j, hj⟩ : ∃ j, k.val = j + 1 := Nat.exists_eq_succ_of_ne_zero (Fin.val_ne_zero_iff.2 hk)
  have hlt : j + 1 < 16 := hj ▸ k.isLt
  simp only [exec, execHostWrite, hostWrite, hj, toNat_cardAddress c hlt, h, if_false,
    cardAddress_not_header, cardAt_cardAddress c hlt]

/-- The state-word row of the table of R178: the writes that land, and every other one discarded. -/
theorem writeStateWord_eq (c : CardId) (v : Word) (s : State) :
    writeStateWord c v s =
      if v = 1 ∧ s.cardState c = .free ∧ c.val < 32 then appendIntake c (setCardState c .posted s)
      else if v = 0 ∧ s.cardState c = .posted ∧ c.val < 32 then setCardState c .free (removeIntake c s)
      else if v = 0 ∧ (s.cardState c = .done ∨ s.cardState c = .refused) then setCardState c .free s
      else discardWrite (cardAddress c 0) .state s := by
  cases h : s.cardState c <;> simp [writeStateWord, h, isBoardCard_iff]

/-- A post is the write of POSTED to a board card's state word (R180). -/
theorem exec_post {s : State} (h : s.part ≠ .starting) (n : Fin 32) :
    exec (.post n) s = .next (writeStateWord (boardCard n) 1 s) := by
  rw [← exec_hostWrite_stateWord h, exec, exec, execPost, execHostWrite, toNat_cardAddress _ (by omega)]

/-- A withdrawal is the write of FREE to a board card's state word (R180). -/
theorem exec_withdrawal {s : State} (h : s.part ≠ .starting) (n : Fin 32) :
    exec (.withdrawal n) s = .next (writeStateWord (boardCard n) 0 s) := by
  rw [← exec_hostWrite_stateWord h, exec, exec, execWithdrawal, execHostWrite, toNat_cardAddress _ (by omega)]

theorem writeStateWord_post {s : State} {n : Fin 32} (h : s.cardState (boardCard n) = .free) :
    writeStateWord (boardCard n) 1 s = appendIntake (boardCard n) (setCardState (boardCard n) .posted s) := by
  rw [writeStateWord_eq, if_pos ⟨rfl, h, n.isLt⟩]

theorem writeStateWord_withdrawal {s : State} {n : Fin 32} (h : s.cardState (boardCard n) = .posted) :
    writeStateWord (boardCard n) 0 s = setCardState (boardCard n) .free (removeIntake (boardCard n) s) := by
  rw [writeStateWord_eq, if_neg (by simp), if_pos ⟨rfl, h, n.isLt⟩]

/-- Settles O18: the state word is the shadow; posts and withdrawals are writes to it; and a write is judged by
the row of R178 that the word it names falls under. -/
theorem cardWritesAreJudgedByTheShadow : Obligations.CardWritesAreJudgedByTheShadow := by
  unfold Obligations.CardWritesAreJudgedByTheShadow
  refine ⟨fun c s _ => sharedWord_stateWord c s, fun n s hpart => ⟨?_, ?_, fun hfree => ?_, fun hposted => ?_⟩,
    fun c v s hpart => ?_, fun c k v s hpart hk => exec_hostWrite_bodyWord hpart c hk v⟩
  · rw [exec_post hpart, exec_hostWrite_stateWord hpart]
  · rw [exec_withdrawal hpart, exec_hostWrite_stateWord hpart]
  · rw [exec_post hpart, writeStateWord_post hfree]
    rfl
  · rw [exec_withdrawal hpart, writeStateWord_withdrawal hposted]
    rfl
  · rw [exec_hostWrite_stateWord hpart, writeStateWord_eq]
    rfl

end Sys2Proof.Machine
end
